-- ==== Sys2Proof/Word.lean ====
section
/-! DEFINITION. The widths the spec gives its values: bytes of the buffers and the wire, 16-bit operands and
checksums, the 32-bit reading (00_scope.md R7; 10_state.md R11). -/

namespace Sys2Proof

/-- A byte of a buffer or of a frame (R7: "A byte is 8 bits"). -/
abbrev Byte := BitVec 8

/-- A 16-bit operand, checksum or timer value (R11). -/
abbrev Half := BitVec 16

/-- The 32 bits of a reading (R14): a bit vector the CORE never computes with. -/
abbrev Word32 := BitVec 32

end Sys2Proof
end

