-- ==== Sys2Proof/Syntax.lean ====
section
/-! DEFINITION. What can be written down: the five operations (one constructor per row of
spec/opcode_table.json), the host registers and host transactions, the events of the environment, and the spec's
small assembly (30_encoding.md R66 to R77, 45_host_port.md R130 to R137, 10_state.md R10, R11). -/

namespace Sys2Proof

/-- The three byte buffers, the only memory of the CORE (20_memory.md R40). -/
inductive BufId where
  | pbuf
  | txbuf
  | rxbuf
deriving DecidableEq, Repr

/-- The values of `CMD.BUF`, bits 4 to 3 of a command word (R66); `reserved` is the value 3 (R73). -/
inductive BufSel where
  | pbuf
  | txbuf
  | rxbuf
  | reserved
deriving DecidableEq, Repr

/-- The five operations a command word can start, with the buffer select it carries (R71).
ENC and RDT ignore the select, but all four of its values start them (R73), so the word keeps it. -/
inductive Instr where
  /-- CRC: checksum of `b[ARG0..ARG1]` (40_crc.md R85). -/
  | crc (buf : BufSel)
  /-- ENC: build a frame in `TXBUF` from `PBUF[0..ARG0]` (41_frame_encoder.md R90). -/
  | enc (buf : BufSel)
  /-- VAL: verify the checksum of the frame in `b` with trailer index `ARG0` (42_frame_validator.md R100). -/
  | val (buf : BufSel)
  /-- DEC: decode `b[ARG0..ARG0+3]` into `READING` (43_float_decoder.md R106). -/
  | dec (buf : BufSel)
  /-- RDT: poll the device for a reading (44_poll_fsm.md R110). -/
  | rdt (buf : BufSel)
deriving DecidableEq, Repr

/-- The host register numbers 0 to 31: the sixteen registers of R11 by name, and the reserved numbers
16 to 31 as `reserved k` for the number `16 + k` (R28). -/
inductive HostReg where
  | cmd
  | arg0
  | arg1
  | status
  | err
  | crc
  | flen
  | reading
  | pstate
  | attempt
  | diagCalc
  | diagRecv
  | cfg
  | settle
  | timer
  | rxcnt
  | reserved (k : Fin 16)
deriving DecidableEq, Repr

/-- The width column of R11. The spec gives a reserved number no width; 32, the widest register's, is taken
for it (DESIGN CHOICE, safe, notes/assumptions/8.md: no effect, since the write is discarded and the read is 0). -/
def HostReg.width : HostReg → Nat
  | .cmd => 8
  | .arg0 => 16
  | .arg1 => 16
  | .status => 3
  | .err => 7
  | .crc => 16
  | .flen => 9
  | .reading => 32
  | .pstate => 3
  | .attempt => 3
  | .diagCalc => 16
  | .diagRecv => 16
  | .cfg => 2
  | .settle => 16
  | .timer => 16
  | .rxcnt => 9
  | .reserved _ => 32

/-- The four transactions of the host port (R130). The value of a register write has the register's width in
its type, as R132 asks of a model. -/
inductive HostTxn where
  /-- `RREG n` (R131). -/
  | rreg (r : HostReg)
  /-- `WREG n, v` (R132); a write of `CMD` starts an operation (R135). -/
  | wreg (r : HostReg) (v : BitVec r.width)
  /-- `RBUF b, i` (R133). -/
  | rbuf (b : BufId) (i : Nat)
  /-- `WBUF b, i, v` (R134). -/
  | wbuf (b : BufId) (i : Nat) (v : Byte)
deriving DecidableEq, Repr

/-- One event of the environment, or one turn of the sequencer: who takes the next step, and with what
(10_state.md R10: host, transport, tick source, sequencer; 70_reset_and_hazards.md R160: the reset input). -/
inductive Input where
  /-- The host performs one transaction. -/
  | host (t : HostTxn)
  /-- The sequencer takes its own step, if one is enabled (44_poll_fsm.md R119, R122). -/
  | sequencer
  /-- The 1 ms time base delivers one tick (R118). -/
  | tick
  /-- The transport answers `Transmit` with `Ok(count)` (R116, R136). -/
  | transmitOk (count : Nat)
  /-- The transport answers `Transmit` with `Err` (R117). -/
  | transmitErr
  /-- The transport answers `Receive` with `Ok(bytes)` (R120, R137). -/
  | receiveOk (bytes : List Byte)
  /-- The transport answers `Receive` with `Err` (R121). -/
  | receiveErr
  /-- The reset input is asserted (R160). -/
  | reset
deriving DecidableEq, Repr

/-- The statements of the spec's assembly (R75): a host transaction, or the host's polling loop `WAIT`. -/
inductive Stmt where
  | txn (t : HostTxn)
  | wait
deriving DecidableEq, Repr

/-- The pseudo-instructions of the spec's assembly (R76). -/
inductive Pseudo where
  | crc (b : BufId) (first last : Half)
  | enc (n : Half)
  | val (b : BufId) (ti : Half)
  | dec (b : BufId) (offset : Half)
  | rdt
  | fill (b : BufId) (index : Nat) (bytes : List Byte)
deriving DecidableEq, Repr

end Sys2Proof
end

