-- ==== Sys2Proof/Config.lean ====
section
/-! DEFINITION. The constants of 00_scope.md R5, the implementation parameters of R6 at the values this hardware
takes, and the model's one free value: what a buffer byte holds that nothing has written since reset
(10_state.md R39, 70_reset_and_hazards.md R161). -/

namespace Sys2Proof
namespace Config

/-- `SEED`: initial value of the CRC register (R5). -/
def seed : Half := 0xFFFF#16
/-- `POLY`: the reflected polynomial (R5). -/
def poly : Half := 0xA001#16
/-- `START_MARK`: frame byte 0 (R5). -/
def startMark : Byte := 0x55#8
/-- `CMD_READ_PROCESS`: frame byte 1 of every outbound frame (R5). -/
def cmdReadProcess : Byte := 0x02#8
/-- `END_MARK`: the last frame byte (R5). -/
def endMark : Byte := 0xAA#8
/-- `CONFIRM`: response byte 1 of a positive reply (R5). -/
def confirm : Byte := 0x22#8
/-- `MAX_ATTEMPTS`: transmit/receive cycles per read (R5). -/
def maxAttempts : Nat := 4
/-- `RX_MAX`: `max_bytes` of every `Receive` (R5). -/
def rxMax : Nat := 280
/-- `FLOAT_OFFSET`: index in `RXBUF` of the first byte of the reading (R5). -/
def floatOffset : Nat := 11
/-- `OVERHEAD`: header and trailer bytes of a frame (R5). -/
def overhead : Nat := 6
/-- `TX_CAP` (R6). -/
def txCap : Nat := 255
/-- `RX_CAP` (R6). -/
def rxCap : Nat := 280
/-- `P_CAP` (R6): `TX_CAP - OVERHEAD`. -/
def pCap : Nat := txCap - overhead
/-- `SETTLE_RESET` (R6): 700 ticks of 1 ms. -/
def settleReset : Half := 700#16
/-- The payload byte of the read frame (41_frame_encoder.md R94; decision D11: the constant `0x00`). -/
def readPayload : Byte := 0x00#8

/-- FREE VALUE. The byte at `b:i` that nothing has written since the `epoch`-th reset (R39: "a model must treat
every byte as an arbitrary value until something writes it"; R161: "A model must not assume zero").
It has no body, so no proof can see a value of it; it is fixed for one epoch, so two reads of the same unwritten
byte agree (93_implementation_defined.md U7). DESIGN CHOICE, safe: notes/assumptions/1.md. -/
opaque unwritten (epoch : Nat) (b : BufId) (i : Nat) : Byte

end Config

/-- `cap(b)`, the capacity of a buffer (20_memory.md R40). -/
def BufId.cap : BufId → Nat
  | .pbuf => Config.pCap
  | .txbuf => Config.txCap
  | .rxbuf => Config.rxCap

end Sys2Proof
end

