-- ==== Sys2Proof/WellFormed.lean ====
section
/-! DEFINITION. Which terms are well formed. The types already shut out a register number above 31, a register
write of the wrong width and a fourth buffer, and EVERY term of `Instr` is well formed: all 20 legal-format command
words (30_encoding.md R72) start something, `BUF` = 3 included (R73). What is left to check is the range of a
buffer index in a host transaction (20_memory.md R42), the length of a `Receive` answer (45_host_port.md R137) and
the range a `FILL` covers (30_encoding.md R76). -/

namespace Sys2Proof

/-- A buffer transaction stays inside the buffer (R42, R133, R134: `0 <= i < cap(b)`). -/
def HostTxn.wellFormed : HostTxn → Bool
  | .rreg _ => true
  | .wreg _ _ => true
  | .rbuf b i => decide (i < b.cap)
  | .wbuf b i _ => decide (i < b.cap)

/-- An event keeps the contract of its port: `0 <= k <= max` bytes in a `Receive` answer (R137). -/
def Input.wellFormed : Input → Bool
  | .host t => t.wellFormed
  | .sequencer => true
  | .tick => true
  | .transmitOk _ => true
  | .transmitErr => true
  | .receiveOk bytes => decide (bytes.length ≤ Config.rxMax)
  | .receiveErr => true
  | .reset => true

/-- A statement of the assembly is well formed when its transaction is. -/
def Stmt.wellFormed : Stmt → Bool
  | .txn t => t.wellFormed
  | .wait => true

/-- A pseudo-instruction is well formed when every transaction it expands to is: only `FILL` can leave its
buffer (R76). -/
def Pseudo.wellFormed : Pseudo → Bool
  | .crc _ _ _ => true
  | .enc _ => true
  | .val _ _ => true
  | .dec _ _ => true
  | .rdt => true
  | .fill b index bytes => decide (index + bytes.length ≤ b.cap)

end Sys2Proof
end

