-- ==== Sys2Proof/Decode.lean ====
section
/-! DEFINITION. The command word: decoding, total on all 256 bytes and rejecting by name, and the encoder
(30_encoding.md R66, R71 to R73). Then the expansion of the assembly's pseudo-instructions into host transactions,
which writes these words (R75, R76). -/

namespace Sys2Proof

/-- Why a byte is no command word (R72); writing it to `CMD` raises `IllegalOp`. -/
inductive DecodeReject where
  /-- One of bits 7 to 5 is set. -/
  | reservedBits
  /-- `OP` is 0, 6 or 7. -/
  | reservedOp
deriving DecidableEq, Repr

/-- `CMD.OP`, bits 2 to 0 (R66). -/
def opField (w : Byte) : BitVec 3 := w.extractLsb' 0 3

/-- `CMD.BUF`, bits 4 to 3 (R66). -/
def bufField (w : Byte) : BitVec 2 := w.extractLsb' 3 2

/-- Bits 7 to 5, which must be 0 (R66). -/
def reservedField (w : Byte) : BitVec 3 := w.extractLsb' 5 3

/-- The buffer select a 2-bit field names (R40, R66). -/
def BufSel.ofBits (v : BitVec 2) : BufSel :=
  match v.toNat with
  | 0 => .pbuf
  | 1 => .txbuf
  | 2 => .rxbuf
  | _ => .reserved

/-- The 2-bit field of a buffer select (R40, R66). -/
def BufSel.toBits : BufSel → BitVec 2
  | .pbuf => 0
  | .txbuf => 1
  | .rxbuf => 2
  | .reserved => 3

/-- The operation a command word selects (R71), or why it selects none (R72). -/
def decode (w : Byte) : Except DecodeReject Instr :=
  if reservedField w ≠ 0 then .error .reservedBits
  else
    match (opField w).toNat with
    | 1 => .ok (.crc (BufSel.ofBits (bufField w)))
    | 2 => .ok (.enc (BufSel.ofBits (bufField w)))
    | 3 => .ok (.val (BufSel.ofBits (bufField w)))
    | 4 => .ok (.dec (BufSel.ofBits (bufField w)))
    | 5 => .ok (.rdt (BufSel.ofBits (bufField w)))
    | _ => .error .reservedOp

/-- The value of `CMD.OP` of an operation (R71). -/
def Instr.opBits : Instr → BitVec 3
  | .crc _ => 1
  | .enc _ => 2
  | .val _ => 3
  | .dec _ => 4
  | .rdt _ => 5

/-- The buffer select an operation's word carries (R66). -/
def Instr.buf : Instr → BufSel
  | .crc b => b
  | .enc b => b
  | .val b => b
  | .dec b => b
  | .rdt b => b

/-- The command word of an operation: 3 zero bits, `BUF`, `OP` (R66). -/
def encode (i : Instr) : Byte := 0#3 ++ i.buf.toBits ++ i.opBits

/-- The instruction the decoder reads from a table row's bits. Every command word is one byte, bit 0 its least
significant bit, so of `nbits` bits only the first byte is looked at and missing bits are 0. -/
def decodeTableWord (nbits w : Nat) : Option Instr :=
  match decode (BitVec.ofNat 8 (w % 2 ^ nbits)) with
  | .ok i => some i
  | .error _ => none

/-- The buffer select that names a buffer (R40). -/
def BufId.sel : BufId → BufSel
  | .pbuf => .pbuf
  | .txbuf => .txbuf
  | .rxbuf => .rxbuf

/-- `FILL`: one `WBUF` per byte, at rising indices (R76). -/
def fillTxns (b : BufId) (index : Nat) : List Byte → List HostTxn
  | [] => []
  | v :: vs => .wbuf b index v :: fillTxns b (index + 1) vs

/-- The expansion of each pseudo-instruction (R76). -/
def Pseudo.expand : Pseudo → List Stmt
  | .crc b first last =>
      [.txn (.wreg .arg0 first), .txn (.wreg .arg1 last), .txn (.wreg .cmd (encode (.crc b.sel))), .wait]
  | .enc n => [.txn (.wreg .arg0 n), .txn (.wreg .cmd (encode (.enc .pbuf))), .wait]
  | .val b ti => [.txn (.wreg .arg0 ti), .txn (.wreg .cmd (encode (.val b.sel))), .wait]
  | .dec b offset => [.txn (.wreg .arg0 offset), .txn (.wreg .cmd (encode (.dec b.sel))), .wait]
  | .rdt => [.txn (.wreg .cmd (encode (.rdt .pbuf))), .wait]
  | .fill b index bytes => (fillTxns b index bytes).map .txn

/-- The host events of a statement. `WAIT` is a loop of the host and no operation of the CORE (R75): how often it
reads `STATUS` before it sees `DONE` depends on the interleaving, so the number of reads is an argument
(DESIGN CHOICE, safe: notes/assumptions/13.md). -/
def Stmt.inputs (polls : Nat) : Stmt → List Input
  | .txn t => [.host t]
  | .wait => List.replicate polls (.host (.rreg .status))

end Sys2Proof
end

