-- ==== Sys2Proof/Machine/State.lean ====
section
/-! DEFINITION. The whole state of the CORE as plain data (10_state.md R10 to R33, 20_memory.md R40), the reasons
a step can stop, and the state after reset (R39, 70_reset_and_hazards.md R160). -/

namespace Sys2Proof
namespace Machine

/-- The states of the poll state machine (R21). The value 7 is written by no rule, so the type has no name
for it. -/
inductive PState where
  | idle
  | sending
  | awaitingResponse
  | confirmed
  | retrying
  | exhausted
  | transportError
deriving DecidableEq, Repr

/-- `XREQ`, the outstanding transport request (R30). -/
inductive XReq where
  | none
  | tx
  | rx
deriving DecidableEq, Repr

/-- `CPH`, the phase of the Checksum Engine (R23): 0 off, 1 absorb pending, 2 shifting. -/
inductive Phase where
  | off
  | absorb
  | shift
deriving DecidableEq, Repr

/-- `ERR.CODE` (60_exceptions.md R140). Codes 7 to 15 are written by no rule. -/
inductive ErrCode where
  | none
  | frameTooLarge
  | messageGenerationFailed
  | badResponse
  | badOperand
  | emptyRange
  | illegalOp
deriving DecidableEq, Repr

/-- `ERR.CAUSE` (R141). Causes 5 to 7 are written by no rule. -/
inductive ErrCause where
  | none
  | txFail
  | rxFail
  | noConfirm
  | checksumMismatch
deriving DecidableEq, Repr

/-- The Checksum Engine (40_crc.md R80): the host-visible register `CRC` (R13) and the hidden micro-position
`IDX`, `EIDX`, `BITCNT`, `CPH` (R23). -/
structure Engine where
  crc    : Half
  idx    : BitVec 9
  eidx   : BitVec 9
  bitcnt : BitVec 3
  phase  : Phase
deriving DecidableEq, Repr

/-- The contents of one buffer: the bytes written since reset, by rising index. An index that is not listed
holds no written value; a read of it gives the free value `Config.unwritten`. -/
abbrev Memory := List Host.Cell

/-- What the CORE sends out through its two ports, in the order it was sent: the answer to a host read
(45_host_port.md R131, R133) and the transport requests it posts (R136, R137). -/
inductive Output where
  | register (r : HostReg) (v : BitVec r.width)
  | byte (b : BufId) (i : Nat) (v : Byte)
  | transmit (bytes : List Byte)
  | receive (max : Nat)
deriving DecidableEq, Repr

/-- The state of the machine: the register file of R11 (each register at its own width, `STATUS` and `ERR` as
their fields), the three buffers (R40), the hidden state (R23 in `eng`, R30), and three fields of the MODEL's own
that stand for the world around the block (DESIGN CHOICE, safe: notes/assumptions/1.md, 2.md, 3.md):
`inputs`, the events still to come, first one first (R32: an oracle of the model);
`outputs`, what the ports have sent so far, newest first;
`epoch`, how many resets there have been, the counter the free bytes are taken from. -/
structure State where
  cmd      : BitVec 8
  arg0     : BitVec 16
  arg1     : BitVec 16
  busy     : Bool
  done     : Bool
  valid    : Bool
  errCode  : ErrCode
  errCause : ErrCause
  eng      : Engine
  flen     : BitVec 9
  reading  : BitVec 32
  pstate   : PState
  attempt  : BitVec 3
  diagCalc : BitVec 16
  diagRecv : BitVec 16
  cfg      : BitVec 2
  settle   : BitVec 16
  timer    : BitVec 16
  rxcnt    : BitVec 9
  pbuf     : Memory
  txbuf    : Memory
  rxbuf    : Memory
  xreq     : XReq
  epoch    : Nat
  inputs   : List Input
  outputs  : List Output
deriving DecidableEq, Repr

/-- The machine has no fault: every error of the spec is a value left in `ERR` by an operation that ends
(60_exceptions.md R149, R151), a next state. So no step stops with a fault, and the type is empty (notes/assumptions/14.md). -/
inductive Fault
deriving DecidableEq, Repr

/-- Why a step can have no meaning. All of them are host or transport transactions the spec puts outside the
contract of a port; none is an operation of the opcode table (notes/assumptions/5.md). -/
inductive Refusal where
  /-- Raised by an arm of `exec` that has no meaning yet; no arm does. Safe. -/
  | notModelled (mnemonic : String)
  /-- Raised by the host port: a host transaction other than `RREG` of `STATUS`, `PSTATE`, `ATTEMPT`, `TIMER`
  while `BUSY` = 1 (45_host_port.md R138: "A model must give such a transaction no meaning (refuse it)"). Safe. -/
  | hostAccessWhileBusy
  /-- Raised by the host port: `RBUF` or `WBUF` with an index outside the buffer (20_memory.md R42: "a model
  should refuse the transaction"). Safe. -/
  | bufferIndexOutOfRange
  /-- Raised by the transport port: a `Receive` answered with more than 280 bytes (45_host_port.md R137: "the model
  gives such an answer no move"). Safe for the block; a claim about RDT assumes the transport's contract. -/
  | receiveTooLong
deriving DecidableEq, Repr

/-- The machine right after reset (R11's reset column, R23, R30, R39, R160): every register 0 but `SETTLE` = 700,
`PSTATE` = `Idle`, `XREQ` = `None`, no byte of any buffer written, nothing yet asked of the block and nothing
sent. -/
def State.reset : State where
  cmd      := 0
  arg0     := 0
  arg1     := 0
  busy     := false
  done     := false
  valid    := false
  errCode  := .none
  errCause := .none
  eng      := { crc := 0, idx := 0, eidx := 0, bitcnt := 0, phase := .off }
  flen     := 0
  reading  := 0
  pstate   := .idle
  attempt  := 0
  diagCalc := 0
  diagRecv := 0
  cfg      := 0
  settle   := Config.settleReset
  timer    := 0
  rxcnt    := 0
  pbuf     := []
  txbuf    := []
  rxbuf    := []
  xreq     := .none
  epoch    := 0
  inputs   := []
  outputs  := []

end Machine
end Sys2Proof
end

