-- ==== Sys2Proof/Machine/Flags.lean ====
section
/-! DEFINITION. The register images of the flags and codes: `STATUS` (10_state.md R16), `ERR` (R17,
60_exceptions.md R140, R141), `PSTATE` (R21), `CFG` (R25), the output line `done` (60_exceptions.md R147), and the names
of the error codes (R146). There are no arithmetic condition codes (R16). -/

namespace Sys2Proof
namespace Machine

/-- The value of `PSTATE` (R21). -/
def PState.num : PState → BitVec 3
  | .idle => 0
  | .sending => 1
  | .awaitingResponse => 2
  | .confirmed => 3
  | .retrying => 4
  | .exhausted => 5
  | .transportError => 6

/-- The column `BUSY` of R21: in these states an RDT is in flight. -/
def PState.running : PState → Bool
  | .idle => false
  | .sending => true
  | .awaitingResponse => true
  | .confirmed => false
  | .retrying => true
  | .exhausted => false
  | .transportError => false

/-- The value of `ERR.CODE` (R140). -/
def ErrCode.num : ErrCode → BitVec 4
  | .none => 0
  | .frameTooLarge => 1
  | .messageGenerationFailed => 2
  | .badResponse => 3
  | .badOperand => 4
  | .emptyRange => 5
  | .illegalOp => 6

/-- The value of `ERR.CAUSE` (R141). -/
def ErrCause.num : ErrCause → BitVec 3
  | .none => 0
  | .txFail => 1
  | .rxFail => 2
  | .noConfirm => 3
  | .checksumMismatch => 4

/-- The name a reader of `ERR` gives a code, with the "unknown" fallback (R140, R146). -/
def errCodeName (code : BitVec 4) : String :=
  match code.toNat with
  | 0 => "None"
  | 1 => "FrameTooLarge"
  | 2 => "MessageGenerationFailed"
  | 3 => "BadResponse"
  | 4 => "BadOperand"
  | 5 => "EmptyRange"
  | 6 => "IllegalOp"
  | _ => "unknown"

/-- The name a reader of `ERR` gives a cause (R141, R146). -/
def errCauseName (cause : BitVec 3) : String :=
  match cause.toNat with
  | 0 => "None"
  | 1 => "TxFail"
  | 2 => "RxFail"
  | 3 => "NoConfirm"
  | 4 => "ChecksumMismatch"
  | _ => "unknown"

/-- The image of `STATUS`: bit 2 `VALID`, bit 1 `DONE`, bit 0 `BUSY` (R16). -/
def State.statusWord (s : State) : BitVec 3 :=
  BitVec.ofBool s.valid ++ BitVec.ofBool s.done ++ BitVec.ofBool s.busy

/-- The image of `ERR`: bits 6 to 4 `CAUSE`, bits 3 to 0 `CODE` (R17). -/
def State.errWord (s : State) : BitVec 7 := s.errCause.num ++ s.errCode.num

/-- `CFG.STRICT`, bit 0 (R25). -/
def State.strict (s : State) : Bool := s.cfg.getLsbD 0

/-- `CFG.WIRE_BE`, bit 1 (R25). -/
def State.wireBE (s : State) : Bool := s.cfg.getLsbD 1

/-- The level of the output line `done` (R16, R147). -/
def State.doneLine (s : State) : Bool := s.done

end Machine
end Sys2Proof
end

