-- ==== Sys2Proof/Machine/Memory.lean ====
section
/-! DEFINITION. One buffer's memory as a list of (index, byte) pairs in one canonical form (20_memory.md R40, R50):
strictly rising indices, all below the buffer's capacity. An unlisted index holds no written value (R39), so no
entry can repeat what an unlisted index holds, and equal memories are equal lists (DESIGN CHOICE, safe: notes/assumptions/9.md). -/

namespace Sys2Proof
namespace Machine

/-- The byte last written at `a`, if any was written since reset. -/
def Memory.find? : Memory → Nat → Option Byte
  | [], _ => none
  | (k, v) :: m, a => if k = a then some v else Memory.find? m a

/-- `MemWrite(b:a, 1, v)` on one buffer (00_scope.md R7). -/
def Memory.insert (a : Nat) (v : Byte) : Memory → Memory
  | [] => [(a, v)]
  | (k, w) :: m =>
    if a < k then (a, v) :: (k, w) :: m
    else if a = k then (a, v) :: m
    else (k, w) :: Memory.insert a v m

/-- Bytes written one after another at rising indices. -/
def Memory.insertList (a : Nat) : List Byte → Memory → Memory
  | [], m => m
  | v :: vs, m => Memory.insertList (a + 1) vs (Memory.insert a v m)

/-- The memory in which indices 0 to `n - 1` hold 0: what writing 0 to each of them leaves of a buffer of
capacity `n` (44_poll_fsm.md R111; DESIGN CHOICE, safe: notes/assumptions/10.md). -/
def Memory.zeros (n : Nat) : Memory := (List.range n).map fun i => (i, 0#8)

/-- Indices rise strictly, and each is at least `lo`. -/
def Memory.risingFrom : Nat → Memory → Bool
  | _, [] => true
  | lo, (k, _) :: m => decide (lo ≤ k) && Memory.risingFrom (k + 1) m

/-- The canonical form of a buffer of capacity `cap`. -/
def Memory.wf (cap : Nat) (m : Memory) : Bool :=
  Memory.risingFrom 0 m && m.all fun c => decide (c.1 < cap)

end Machine
end Sys2Proof
end

