-- ==== Sys2Proof/Machine/Ops.lean ====
section
/-! DEFINITION. The operations every meaning shares: reading and writing a buffer byte, the start of an operation
(45_host_port.md R135), its normal end `complete`, and its end by an error, `raise` (60_exceptions.md R149), which is all
this hardware has in place of taking an exception. There is no return from one (R151): the next accepted
start clears `ERR` and `DONE`. -/

namespace Sys2Proof
namespace Machine

/-- The memory of a buffer (20_memory.md R40). -/
def State.mem (s : State) : BufId → Memory
  | .pbuf => s.pbuf
  | .txbuf => s.txbuf
  | .rxbuf => s.rxbuf

/-- The state with another memory for one buffer. -/
def State.setMem (s : State) (b : BufId) (m : Memory) : State :=
  match b with
  | .pbuf => { s with pbuf := m }
  | .txbuf => { s with txbuf := m }
  | .rxbuf => { s with rxbuf := m }

/-- `MemRead(b:i, 1)` (00_scope.md R7): the byte last written, and where none was written since reset the free
value of this epoch (10_state.md R39, 70_reset_and_hazards.md R161). -/
def State.readByte (s : State) (b : BufId) (i : Nat) : Byte :=
  ((s.mem b).find? i).getD (Config.unwritten s.epoch b i)

/-- The bytes `b[first], …, b[first + count - 1]`. -/
def State.readBytes (s : State) (b : BufId) (first count : Nat) : List Byte :=
  (List.range' first count).map (s.readByte b)

/-- `MemWrite(b:i, 1, v)` (00_scope.md R7). -/
def State.writeByte (s : State) (b : BufId) (i : Nat) (v : Byte) : State :=
  s.setMem b ((s.mem b).insert i v)

/-- Bytes written one after another at `b:i`, `b:i+1`, … (20_memory.md R54). -/
def State.writeBytes (s : State) (b : BufId) (i : Nat) (vs : List Byte) : State :=
  s.setMem b ((s.mem b).insertList i vs)

/-- 0 written to every byte of a buffer (44_poll_fsm.md R111). -/
def State.clearBuffer (s : State) (b : BufId) : State :=
  s.setMem b (Memory.zeros b.cap)

/-- Something leaves the block through a port. -/
def State.emit (s : State) (o : Output) : State :=
  { s with outputs := o :: s.outputs }

/-- The common prologue of a start: `CMD <- w`, `BUSY <- 1`, `DONE <- 0`, `ERR <- 0` (R135). -/
def State.accept (s : State) (w : Byte) : State :=
  { s with cmd := w, busy := true, done := false, errCode := .none, errCause := .none }

/-- `complete`, the common epilogue: `BUSY <- 0`, `DONE <- 1`, `ERR` left as the prologue set it (R135). -/
def State.complete (s : State) : State :=
  { s with busy := false, done := true }

/-- `raise E(cause)` (R149): `ERR.CAUSE` takes the cause with `badResponse`, and 0 with every other error. -/
def State.raise (s : State) (code : ErrCode) (cause : ErrCause) : State :=
  { s with
    errCode := code, errCause := if code = .badResponse then cause else .none
    xreq := .none, busy := false, done := true }

/-- `lo = c[7:0]` (30_encoding.md R69). -/
def lowByte (c : Half) : Byte := c.extractLsb' 0 8

/-- `hi = c[15:8]` (R69). -/
def highByte (c : Half) : Byte := c.extractLsb' 8 8

/-- `cat(hi, lo)`, that is `(high_byte << 8) | low_byte` (R69). -/
def catBytes (hi lo : Byte) : Half := hi ++ lo

end Machine
end Sys2Proof
end

