-- ==== Sys2Proof/Machine/Operands.lean ====
section
/-! DEFINITION. Operands: the buffer a command word selects, the operands each operation takes from `ARG0` and `ARG1`
with the checks that precede its first access (20_memory.md R43, R44; 60_exceptions.md R145, R148), and the host registers by
number (10_state.md R11, R28). Index arithmetic is on natural numbers and never wraps (R38). -/

namespace Sys2Proof
namespace Machine

/-- The buffer a select names; the value 3 names none (R40, 30_encoding.md R73). -/
def bufferOf : BufSel → Option BufId
  | .pbuf => some .pbuf
  | .txbuf => some .txbuf
  | .rxbuf => some .rxbuf
  | .reserved => none

/-- CRC: buffer, first and last index (40_crc.md R85). `BUF` = 3, then `ARG1 >= cap(b)`, then `ARG0 > ARG1`. -/
def crcOperands (sel : BufSel) (s : State) : Except ErrCode (BufId × Nat × Nat) :=
  match bufferOf sel with
  | none => .error .badOperand
  | some b =>
    if b.cap ≤ s.arg1.toNat then .error .badOperand
    else if s.arg1.toNat < s.arg0.toNat then .error .emptyRange
    else .ok (b, s.arg0.toNat, s.arg1.toNat)

/-- ENC: the upper index `N` (41_frame_encoder.md R91): the frame's `N + 7` bytes must fit `TXBUF`. -/
def encOperand (s : State) : Except ErrCode Nat :=
  if Config.txCap < s.arg0.toNat + 7 then .error .frameTooLarge
  else .ok s.arg0.toNat

/-- VAL: buffer and trailer index (42_frame_validator.md R100, R101). `BUF` = 3, then `ARG0` out of range. -/
def valOperands (sel : BufSel) (s : State) : Except ErrCode (BufId × Nat) :=
  match bufferOf sel with
  | none => .error .badOperand
  | some b =>
    if s.arg0.toNat < 3 ∨ b.cap ≤ s.arg0.toNat then .error .badOperand
    else .ok (b, s.arg0.toNat)

/-- DEC: buffer and offset (43_float_decoder.md R106). `BUF` = 3, then `ARG0 + 3 >= cap(b)`. -/
def decOperands (sel : BufSel) (s : State) : Except ErrCode (BufId × Nat) :=
  match bufferOf sel with
  | none => .error .badOperand
  | some b =>
    if b.cap ≤ s.arg0.toNat + 3 then .error .badOperand
    else .ok (b, s.arg0.toNat)

/-- The number of a host register (R11, R28). -/
def regNumber : HostReg → Nat
  | .cmd => 0
  | .arg0 => 1
  | .arg1 => 2
  | .status => 3
  | .err => 4
  | .crc => 5
  | .flen => 6
  | .reading => 7
  | .pstate => 8
  | .attempt => 9
  | .diagCalc => 10
  | .diagRecv => 11
  | .cfg => 12
  | .settle => 13
  | .timer => 14
  | .rxcnt => 15
  | .reserved k => 16 + k.val

/-- The host register with a number, 0 to 31 (R11, R28). -/
def regOfNumber (n : Fin 32) : HostReg :=
  match n.val with
  | 0 => .cmd
  | 1 => .arg0
  | 2 => .arg1
  | 3 => .status
  | 4 => .err
  | 5 => .crc
  | 6 => .flen
  | 7 => .reading
  | 8 => .pstate
  | 9 => .attempt
  | 10 => .diagCalc
  | 11 => .diagRecv
  | 12 => .cfg
  | 13 => .settle
  | 14 => .timer
  | 15 => .rxcnt
  | k => .reserved (Fin.ofNat 16 (k - 16))

/-- The current value of a host register, a bit vector of exactly its width (R11); a reserved number reads 0
(R28). -/
def State.register (s : State) : (r : HostReg) → BitVec r.width
  | .cmd => s.cmd
  | .arg0 => s.arg0
  | .arg1 => s.arg1
  | .status => s.statusWord
  | .err => s.errWord
  | .crc => s.eng.crc
  | .flen => s.flen
  | .reading => s.reading
  | .pstate => s.pstate.num
  | .attempt => s.attempt
  | .diagCalc => s.diagCalc
  | .diagRecv => s.diagRecv
  | .cfg => s.cfg
  | .settle => s.settle
  | .timer => s.timer
  | .rxcnt => s.rxcnt
  | .reserved _ => 0#32

/-- The registers the host may read while `BUSY` = 1 (45_host_port.md R138). -/
def readableWhileBusy : HostReg → Bool
  | .status => true
  | .pstate => true
  | .attempt => true
  | .timer => true
  | _ => false

end Machine
end Sys2Proof
end

