-- ==== Sys2Proof/Machine/Checksum.lean ====
section
/-! DEFINITION. Component 1, the Checksum Engine: the pure functions of 00_scope.md R8, the micro-operations and their
sequencing (40_crc.md R80 to R84), and the operation CRC (R85, R86). -/

namespace Sys2Proof
namespace Machine

/-- One shift of the register (00_scope.md R8): the bit shifted out decides whether `POLY` is XORed in. -/
def crcBit (c : Half) : Half :=
  if c.getLsbD 0 then (c >>> 1) ^^^ Config.poly else c >>> 1

/-- `crc_bit` applied `n` times. -/
def crcBits : Nat → Half → Half
  | 0, c => c
  | n + 1, c => crcBits n (crcBit c)

/-- `crc_byte` (R8): the byte is XORed into bits 7 to 0, then eight shifts. -/
def crcByte (c : Half) (d : Byte) : Half := crcBits 8 (c ^^^ d.setWidth 16)

/-- The checksum of a byte list continued from the register value `c`. -/
def crcFrom (c : Half) (ds : List Byte) : Half := ds.foldl crcByte c

/-- `crc16` (R8): total, and the seed on the empty list. -/
def crc16 (ds : List Byte) : Half := crcFrom Config.seed ds

/-- `crc_range(b, s, e)` (R8): the checksum of `b[first..last]`, both included. -/
def State.crcRange (s : State) (b : BufId) (first last : Nat) : Half :=
  crc16 (s.readBytes b first (last - first + 1))

/-- `CRC.SEED(b, s, e)` (R81). -/
def Engine.seed (first last : Nat) : Engine where
  crc := Config.seed
  idx := BitVec.ofNat 9 first
  eidx := BitVec.ofNat 9 last
  bitcnt := 0
  phase := .absorb

/-- `CRC.ABSORB` on the byte at `b:IDX` (R82). -/
def Engine.absorb (d : Byte) (g : Engine) : Engine :=
  { g with crc := g.crc ^^^ d.setWidth 16, bitcnt := 0, phase := .shift }

/-- `CRC.SHIFT` (R83). -/
def Engine.shift (g : Engine) : Engine :=
  if g.bitcnt.toNat < 7 then { g with crc := crcBit g.crc, bitcnt := g.bitcnt + 1 }
  else if g.idx = g.eidx then { g with crc := crcBit g.crc, phase := .off }
  else { g with crc := crcBit g.crc, idx := g.idx + 1, bitcnt := 0, phase := .absorb }

/-- The one micro-operation that is enabled, on a buffer read by `rd` (R84). -/
def Engine.micro (rd : Nat → Byte) (g : Engine) : Engine :=
  match g.phase with
  | .off => g
  | .absorb => g.absorb (rd g.idx.toNat)
  | .shift => g.shift

/-- `n` micro-operations. -/
def Engine.iterate (rd : Nat → Byte) : Nat → Engine → Engine
  | 0, g => g
  | n + 1, g => Engine.iterate rd n (g.micro rd)

/-- `crc_run(b, s, e)` (R84): the seed step, then one absorb and eight shifts for each byte of the range. -/
def Engine.run (rd : Nat → Byte) (first last : Nat) : Engine :=
  Engine.iterate rd (9 * (last - first + 1)) (Engine.seed first last)

/-- `crc_run` on a buffer of the machine: only the engine changes (R84, R85). -/
def State.crcRun (s : State) (b : BufId) (first last : Nat) : State :=
  { s with eng := Engine.run (s.readByte b) first last }

/-- Operation CRC (R85): `BadOperand`, `EmptyRange`, or the checksum of `b[ARG0..ARG1]` in `CRC`. -/
def execCrc (buf : BufSel) (s : State) : Host.Outcome State Fault Refusal :=
  match crcOperands buf s with
  | .error e => .next (s.raise e .none)
  | .ok (b, first, last) => .next (s.crcRun b first last).complete

end Machine
end Sys2Proof
end

