-- ==== Sys2Proof/Machine/Encoder.lean ====
section
/-! DEFINITION. Component 3, the Frame Encoder: the wire frame (30_encoding.md R60 to R65, R69), the operation ENC
(41_frame_encoder.md R90, R91) and the frame build of RDT (R94). -/

namespace Sys2Proof
namespace Machine

/-- The outbound frame of a payload, as the bit-exact layout writes it (R61): start marker, command, length byte
(payload count minus one, R62), payload, checksum low and high byte over command to payload (R63), end marker. -/
def frameOf (payload : List Byte) : List Byte :=
  let covered := Config.cmdReadProcess :: BitVec.ofNat 8 (payload.length - 1) :: payload
  Config.startMark :: covered ++ [lowByte (crc16 covered), highByte (crc16 covered), Config.endMark]

/-- The length in bytes of a frame, a function of its third byte alone (R65). -/
def frameLength (frame : List Byte) : Nat := (frame.getD 2 0).toNat + 7

/-- The trailer index of a frame, the index of its checksum high byte (R65, R68). -/
def trailerIndex (frame : List Byte) : Nat := (frame.getD 2 0).toNat + 5

/-- The payload a reader takes out of a frame: it walks from the length byte (R65). -/
def framePayload (frame : List Byte) : List Byte := (frame.drop 3).take ((frame.getD 2 0).toNat + 1)

/-- The body ENC and the frame build of RDT share, in the order of R90 and R92: header, payload copy, checksum over
indices 1 to `3 + N` read back from `TXBUF`, trailer, `FLEN`. -/
def State.buildFrame (s : State) (n : Nat) (payload : List Byte) : State :=
  let s := s.writeBytes .txbuf 0 [Config.startMark, Config.cmdReadProcess, BitVec.ofNat 8 n]
  let s := s.writeBytes .txbuf 3 payload
  let s := s.crcRun .txbuf 1 (3 + n)
  let s := s.writeBytes .txbuf (4 + n) [lowByte s.eng.crc, highByte s.eng.crc, Config.endMark]
  { s with flen := BitVec.ofNat 9 (n + 7) }

/-- `build_read_frame` (R94): the body of ENC with `N` = 0 and the constant one-byte payload. -/
def State.buildReadFrame (s : State) : State := s.buildFrame 0 [Config.readPayload]

/-- Operation ENC (R90, R91): `FrameTooLarge` with `FLEN` = 0, or the frame of `PBUF[0..N]` in `TXBUF`. `BUF` is
ignored (30_encoding.md R73). -/
def execEnc (_buf : BufSel) (s : State) : Host.Outcome State Fault Refusal :=
  match encOperand s with
  | .error e => .next (State.raise { s with flen := 0 } e .none)
  | .ok n => .next (s.buildFrame n (s.readBytes .pbuf 0 (n + 1))).complete

end Machine
end Sys2Proof
end

