-- ==== Sys2Proof/Machine/Validator.lean ====
section
/-! DEFINITION. Component 4, the Frame Validator: the comparison VAL and the strict-mode check share, and the
operation VAL (42_frame_validator.md R100 to R104). -/

namespace Sys2Proof
namespace Machine

/-- The stored checksum of a frame with trailer index `ti`: `cat(b[ti], b[ti - 1])` (R100). -/
def State.storedChecksum (s : State) (b : BufId) (ti : Nat) : Half :=
  catBytes (s.readByte b ti) (s.readByte b (ti - 1))

/-- The body of VAL (R100): run the engine over `[1, ti - 2]`, compare with the stored checksum, write the
diagnostic registers and `VALID`. -/
def State.validate (s : State) (b : BufId) (ti : Nat) : State :=
  let recv := s.storedChecksum b ti
  let s := s.crcRun b 1 (ti - 2)
  { s with diagCalc := s.eng.crc, diagRecv := recv, valid := decide (s.eng.crc = recv) }

/-- Operation VAL (R100, R101, R103): `VALID` is cleared first, a mismatch is a result and no error. -/
def execVal (buf : BufSel) (s : State) : Host.Outcome State Fault Refusal :=
  let s := { s with valid := false }
  match valOperands buf s with
  | .error e => .next (s.raise e .none)
  | .ok (b, ti) => .next (s.validate b ti).complete

end Machine
end Sys2Proof
end

