-- ==== Sys2Proof/Machine/FloatDecoder.lean ====
section
/-! DEFINITION. Component 2, the Byte-Order Decoder: `f32_bits`, the operation DEC (43_float_decoder.md R105, R106), and
the reading of the 32 bits as an IEEE-754 single-precision value (R107), which no rule of the CORE uses. -/

namespace Sys2Proof
namespace Machine

/-- Four bytes, lowest index first, as 32 bits in the wire order `be` names (R105, 20_memory.md R47). -/
def wireWord (be : Bool) (b0 b1 b2 b3 : Byte) : Word32 :=
  if be then b0 ++ b1 ++ b2 ++ b3 else b3 ++ b2 ++ b1 ++ b0

/-- `f32_bits(b, o, be)` (R105). -/
def State.f32Bits (s : State) (b : BufId) (o : Nat) (be : Bool) : Word32 :=
  wireWord be (s.readByte b o) (s.readByte b (o + 1)) (s.readByte b (o + 2)) (s.readByte b (o + 3))

/-- Operation DEC (R106): `BadOperand`, or the four bytes at `b:ARG0` in `READING`, every pattern as it is (R108). -/
def execDec (buf : BufSel) (s : State) : Host.Outcome State Fault Refusal :=
  match decOperands buf s with
  | .error e => .next (s.raise e .none)
  | .ok (b, o) => .next (State.complete { s with reading := s.f32Bits b o s.wireBE })

/-- The sign bit of a reading (R107). -/
def f32Sign (v : Word32) : Bool := v.getLsbD 31

/-- The biased exponent field of a reading (R107). -/
def f32Exponent (v : Word32) : BitVec 8 := v.extractLsb' 23 8

/-- The fraction field of a reading (R107). -/
def f32Fraction (v : Word32) : BitVec 23 := v.extractLsb' 0 23

/-- What a 32-bit pattern denotes in IEEE-754 single precision (R107): a signed integer times a power of two, an
infinity, or a NaN with its fraction. -/
inductive F32Value where
  | finite (negative : Bool) (significand : Nat) (exponent : Int)
  | infinity (negative : Bool)
  | nan (negative : Bool) (fraction : BitVec 23)
deriving DecidableEq, Repr

/-- The value of a reading (R107), for the statement of a claim about a temperature: zero and the subnormals are
`f * 2^-149`, the normal numbers `(2^23 + f) * 2^(e - 150)`. PRESUMED, safe:
notes/assumptions/15.md. -/
def f32Value (v : Word32) : F32Value :=
  let e := (f32Exponent v).toNat
  let f := (f32Fraction v).toNat
  if e = 0 then .finite (f32Sign v) f (-149)
  else if e < 255 then .finite (f32Sign v) (2 ^ 23 + f) ((e : Int) - 150)
  else if f = 0 then .infinity (f32Sign v)
  else .nan (f32Sign v) (f32Fraction v)

end Machine
end Sys2Proof
end

