-- ==== Sys2Proof/Machine/Poll.lean ====
section
/-! DEFINITION. Component 5, the Poll Loop: the operation RDT and every transition of `PSTATE` (44_poll_fsm.md R110 to
R129), one definition per rule. -/

namespace Sys2Proof
namespace Machine

/-- The strict-mode check (R128): the body of VAL on `RXBUF`, the trailer index taken from the response's own length
byte. Its answer is the `VALID` it leaves. -/
def State.strictCheck (s : State) : State :=
  s.validate .rxbuf ((s.readByte .rxbuf 2).toNat + 5)

/-- The confirmation predicate with the state it leaves (R113): the marker alone, and in strict mode the response
checksum too. -/
def State.confirmed (s : State) : Bool × State :=
  if s.readByte .rxbuf 1 ≠ Config.confirm then (false, s)
  else if s.strict = false then (true, s)
  else (s.strictCheck.valid, s.strictCheck)

/-- Enter `Sending` (R115): post `Transmit(TXBUF[0..FLEN-1])`. -/
def State.enterSending (s : State) : State :=
  State.emit { s with pstate := .sending, xreq := .tx } (.transmit (s.readBytes .txbuf 0 s.flen.toNat))

/-- Enter `Confirmed` (R123, 43_float_decoder.md R109). -/
def State.enterConfirmed (s : State) : State :=
  State.complete { s with pstate := .confirmed, reading := s.f32Bits .rxbuf Config.floatOffset s.wireBE }

/-- Enter `Exhausted` (R124). -/
def State.enterExhausted (s : State) : State :=
  State.raise { s with pstate := .exhausted } .badResponse
    (if s.readByte .rxbuf 1 = Config.confirm then .checksumMismatch else .noConfirm)

/-- Enter `TransportError` (R125). -/
def State.enterTransportError (s : State) (cause : ErrCause) : State :=
  State.raise { s with pstate := .transportError, timer := 0 } .badResponse cause

/-- The gate (R114), evaluated at the end of the start step and after every successful `Receive`. -/
def State.gate (s : State) (atStart : Bool) : State :=
  let (ok, s) := s.confirmed
  if ok then s.enterConfirmed
  else if s.attempt.toNat < Config.maxAttempts then
    if atStart then s.enterSending else { s with pstate := .retrying }
  else s.enterExhausted

/-- Operation RDT, its start step (R111, R112, R114): clear `RXBUF`, build the read frame, then the gate. The check
of `FLEN` is the source's, and can never fire (R112, 60_exceptions.md R143;
notes/assumptions/16.md). `BUF` is ignored (30_encoding.md R73). -/
def execRdt (_buf : BufSel) (s : State) : Host.Outcome State Fault Refusal :=
  let s := s.clearBuffer .rxbuf
  let s := State.buildReadFrame { s with rxcnt := 0, attempt := 0, timer := 0 }
  if s.flen = 0 then .next (State.raise { s with pstate := .idle } .messageGenerationFailed .none)
  else .next (s.gate true)

/-- `Transmit` answers `Ok(count)` (R116): the count is not looked at. An answer no rule waits for is dropped
(70_reset_and_hazards.md R162; DEDUCED, safe: notes/assumptions/6.md). Any answer of this kind is taken as the
outstanding request's, a late answer to a request that reset made the CORE forget included (DESIGN CHOICE, safe:
notes/assumptions/19.md). -/
def State.transmitOk (s : State) (_count : Nat) : State :=
  if s.pstate = .sending ∧ s.xreq = .tx then
    { s with xreq := .none, timer := s.settle, pstate := .awaitingResponse }
  else s

/-- `Transmit` answers `Err` (R117); whose answer it is, as in `State.transmitOk` (notes/assumptions/6.md, 19.md). -/
def State.transmitErr (s : State) : State :=
  if s.pstate = .sending ∧ s.xreq = .tx then State.enterTransportError { s with xreq := .none } .txFail
  else s

/-- One tick of the 1 ms time base (R118); in any other state it changes nothing. -/
def State.tick (s : State) : State :=
  if s.pstate = .awaitingResponse ∧ s.xreq = .none ∧ s.timer ≠ 0 then { s with timer := s.timer - 1 }
  else s

/-- Post `Receive(280)` (R119). -/
def State.postReceive (s : State) : State :=
  State.emit { s with xreq := .rx } (.receive Config.rxMax)

/-- The sequencer's own step: R119 when the settle wait is over, R122 in `Retrying`; otherwise none is enabled, and
none ever is while `BUSY` = 0 (10_state.md R20, R30; DEDUCED, safe: notes/assumptions/7.md). -/
def State.sequencerStep (s : State) : State :=
  if s.busy = true ∧ s.pstate = .awaitingResponse ∧ s.xreq = .none ∧ s.timer = 0 then s.postReceive
  else if s.busy = true ∧ s.pstate = .retrying then s.enterSending
  else s

/-- `Receive` answers `Ok(bytes)` (R120): the bytes overwrite a prefix of `RXBUF`, then the gate. More than 280 bytes
break the transport's contract, and the answer has no move (45_host_port.md R137). Whose answer it is, as in
`State.transmitOk` (notes/assumptions/6.md, 19.md). -/
def receiveOk (bytes : List Byte) (s : State) : Host.Outcome State Fault Refusal :=
  if s.pstate = .awaitingResponse ∧ s.xreq = .rx then
    if Config.rxMax < bytes.length then .refused .receiveTooLong
    else
      let s := s.writeBytes .rxbuf 0 bytes
      .next (State.gate { s with
        rxcnt := BitVec.ofNat 9 bytes.length, attempt := s.attempt + 1, xreq := .none } false)
  else .next s

/-- `Receive` answers `Err` (R121); whose answer it is, as in `State.transmitOk` (notes/assumptions/6.md, 19.md). -/
def State.receiveErr (s : State) : State :=
  if s.pstate = .awaitingResponse ∧ s.xreq = .rx then State.enterTransportError { s with xreq := .none } .rxFail
  else s

end Machine
end Sys2Proof
end

