-- ==== Sys2Proof/Machine/Dispatch.lean ====
section
/-! DEFINITION. One arm per operation of spec/opcode_table.json. `exec i s` is the body of operation `i` after the
common prologue of 45_host_port.md R135. -/

namespace Sys2Proof
namespace Machine

def exec (i : Instr) (s : State) : Host.Outcome State Fault Refusal :=
  match i with
  | .crc buf => Sys2Proof.Machine.execCrc buf s
  | .enc buf => Sys2Proof.Machine.execEnc buf s
  | .val buf => Sys2Proof.Machine.execVal buf s
  | .dec buf => Sys2Proof.Machine.execDec buf s
  | .rdt buf => Sys2Proof.Machine.execRdt buf s

end Machine
end Sys2Proof
end

