-- ==== Sys2Proof/Machine/HostPort.lean ====
section
/-! DEFINITION. The host port: the start of an operation and the four transactions, permitted or not by `BUSY`
(45_host_port.md R130 to R135, R138). -/

namespace Sys2Proof
namespace Machine

/-- Start of an operation, `WREG CMD, w` with `BUSY` = 0 (R135): prologue, then the operation's body, or `IllegalOp`
for a word that is none (30_encoding.md R72). -/
def startOperation (w : Byte) (s : State) : Host.Outcome State Fault Refusal :=
  match decode w with
  | .ok i => exec i (s.accept w)
  | .error _ => .next ((s.accept w).raise .illegalOp .none)

/-- A register write other than `CMD` (R132): the writable registers take the value, read-only and reserved numbers
ignore it (10_state.md R28). -/
def State.writeRegister (s : State) : (r : HostReg) → BitVec r.width → State
  | .arg0, v => { s with arg0 := v }
  | .arg1, v => { s with arg1 := v }
  | .cfg, v => { s with cfg := v }
  | .settle, v => { s with settle := v }
  | .cmd, _ => s
  | .status, _ => s
  | .err, _ => s
  | .crc, _ => s
  | .flen, _ => s
  | .reading, _ => s
  | .pstate, _ => s
  | .attempt, _ => s
  | .diagCalc, _ => s
  | .diagRecv, _ => s
  | .timer, _ => s
  | .rxcnt, _ => s
  | .reserved _, _ => s

/-- `WREG r, v` while `BUSY` = 0 (R132): a write of `CMD` starts an operation. -/
def writeRegister (s : State) : (r : HostReg) → BitVec r.width → Host.Outcome State Fault Refusal
  | .cmd, w => startOperation w s
  | r, v => .next (s.writeRegister r v)

/-- One host transaction (R130 to R134), refused while `BUSY` = 1 except for the four status reads (R138), and
refused when a buffer index is out of range (20_memory.md R42). -/
def hostTransaction (t : HostTxn) (s : State) : Host.Outcome State Fault Refusal :=
  match t with
  | .rreg r =>
    if s.busy = true ∧ readableWhileBusy r = false then .refused .hostAccessWhileBusy
    else .next (s.emit (.register r (s.register r)))
  | .wreg r v =>
    if s.busy = true then .refused .hostAccessWhileBusy
    else writeRegister s r v
  | .rbuf b i =>
    if s.busy = true then .refused .hostAccessWhileBusy
    else if b.cap ≤ i then .refused .bufferIndexOutOfRange
    else .next (s.emit (.byte b i (s.readByte b i)))
  | .wbuf b i v =>
    if s.busy = true then .refused .hostAccessWhileBusy
    else if b.cap ≤ i then .refused .bufferIndexOutOfRange
    else .next (s.writeByte b i v)

end Machine
end Sys2Proof
end

