-- ==== Sys2Proof/Machine/Events.lean ====
section
/-! DEFINITION. What each event of the environment does: a host transaction, a turn of the sequencer, a tick, an
answer of the transport, the reset input (10_state.md R10, 44_poll_fsm.md R126, 70_reset_and_hazards.md R160, R162). -/

namespace Sys2Proof
namespace Machine

/-- The reset input (R160): every register, the micro-position and `XREQ` take their reset values, whatever was
running; an outstanding request is forgotten (R162). Reset does not clear the buffers, and what they hold
afterwards is unspecified until something writes it (R39, R161), so a new epoch of free bytes begins.
What was sent before and the events still to come are not the block's and stay. DESIGN CHOICE, safe:
notes/assumptions/3.md. -/
def State.resetEvent (s : State) : State :=
  { State.reset with epoch := s.epoch + 1, inputs := s.inputs, outputs := s.outputs }

/-- One event happens. -/
def event (e : Input) (s : State) : Host.Outcome State Fault Refusal :=
  match e with
  | .host t => hostTransaction t s
  | .sequencer => .next s.sequencerStep
  | .tick => .next s.tick
  | .transmitOk count => .next (s.transmitOk count)
  | .transmitErr => .next s.transmitErr
  | .receiveOk bytes => receiveOk bytes s
  | .receiveErr => .next s.receiveErr
  | .reset => .next s.resetEvent

/-- The state in which the next event, if there is one, is taken from the list. -/
def State.takeEvent (s : State) : State := { s with inputs := s.inputs.tail }

/-- The state in which the host's next transaction writes the command word `w` to `CMD` with `BUSY` = 0. -/
def State.offerCommand (s : State) (w : Byte) : State :=
  { s with busy := false, inputs := .host (.wreg .cmd w) :: s.inputs }

end Machine
end Sys2Proof
end

