-- ==== Sys2Proof/Machine/Step.lean ====
section
/-! DEFINITION. One step of the machine. `inputs` says who moves next (10_state.md R10): its first event happens; when
it is empty the world is silent, and the sequencer takes its own step if one is enabled (R20, R30), else nothing
changes (70_reset_and_hazards.md R170: a request that is never answered is a hang). -/

namespace Sys2Proof
namespace Machine

/-- One step. -/
def step (s : State) : Host.Outcome State Fault Refusal :=
  match s.inputs with
  | [] => .next s.sequencerStep
  | e :: _ => event e s.takeEvent

/-- The state whose very next step runs the command word of a table row: the CORE fetches nothing (R20), and a
program comes to it as the host's transactions, so the word is put where the next transaction is taken from, with
`BUSY` = 0 as a start needs (45_host_port.md R135). DESIGN CHOICE, safe: notes/assumptions/4.md. -/
def State.withFetchWord (s : State) (nbits w : Nat) : State :=
  s.offerCommand (BitVec.ofNat 8 (w % 2 ^ nbits))

end Machine
end Sys2Proof
end

