-- ==== Sys2Proof/Safety.lean ====
section
/-! DEFINITION. The terms claims are made in: the invariant of the reachable states (10_state.md R15, R16, R21, R22, R27,
R33, 20_memory.md R57, 60_exceptions.md R140, R141, R143), the read frame, and the event lists of one poll cycle and of
one whole read (44_poll_fsm.md R127). -/

namespace Sys2Proof
namespace Machine

/-- The read frame, `55 02 00 00 D0 00 AA` (41_frame_encoder.md R94). -/
def readFrame : List Byte := [0x55#8, 0x02#8, 0x00#8, 0x00#8, 0xD0#8, 0x00#8, 0xAA#8]

/-- `BUSY` and `DONE` are never 1 together (R16), and `BUSY` is as the column of R21 says. -/
abbrev State.FlagsInv (s : State) : Prop :=
  ¬ (s.busy = true ∧ s.done = true) ∧ s.busy = s.pstate.running

/-- The relation between `PSTATE`, `XREQ` and `TIMER` (R27, R33). -/
abbrev State.HandshakeInv (s : State) : Prop :=
  (s.pstate = .sending → s.xreq = .tx) ∧
  (s.pstate = .awaitingResponse → s.xreq = .none ∨ s.xreq = .rx) ∧
  (s.xreq = .rx → s.timer = 0) ∧
  (s.pstate ≠ .sending → s.pstate ≠ .awaitingResponse → s.xreq = .none) ∧
  (s.timer ≠ 0 → s.pstate = .awaitingResponse ∧ s.xreq = .none)

/-- The values `ATTEMPT` can have in each state of the poll machine (R22). -/
def attemptAllowed (p : PState) (n : Nat) : Bool :=
  match p with
  | .idle => decide (n = 0)
  | .sending => decide (n < 4)
  | .awaitingResponse => decide (n < 4)
  | .confirmed => decide (1 ≤ n ∧ n ≤ 4)
  | .retrying => decide (1 ≤ n ∧ n ≤ 3)
  | .exhausted => decide (n = 4)
  | .transportError => decide (n ≤ 3)

/-- The ranges of `ATTEMPT` (R22), `FLEN` and `RXCNT` (R15), and the engine at rest between steps (R33). -/
abbrev State.RangeInv (s : State) : Prop :=
  attemptAllowed s.pstate s.attempt.toNat = true ∧
  (s.flen = 0 ∨ (7 ≤ s.flen.toNat ∧ s.flen.toNat ≤ 255)) ∧
  s.rxcnt.toNat ≤ 280 ∧
  s.eng.phase = .off

/-- `ERR`: no error while an operation runs (R17), a cause exactly with `BadResponse` (R141), and never
`MessageGenerationFailed` (R143). -/
abbrev State.ErrorInv (s : State) : Prop :=
  (s.busy = true → s.errCode = .none) ∧
  (s.errCause ≠ .none ↔ s.errCode = .badResponse) ∧
  s.errCode ≠ .messageGenerationFailed

/-- Each buffer's memory is in canonical form. -/
abbrev State.MemoryInv (s : State) : Prop :=
  Memory.wf BufId.pbuf.cap s.pbuf = true ∧
  Memory.wf BufId.txbuf.cap s.txbuf = true ∧
  Memory.wf BufId.rxbuf.cap s.rxbuf = true

/-- While an RDT runs, `TXBUF` holds the read frame it built at its start (R57). -/
abbrev State.FrameInv (s : State) : Prop :=
  s.busy = true → s.flen = 7 ∧ s.readBytes .txbuf 0 7 = readFrame

/-- The invariant of the machine: it holds at reset and every step keeps it. -/
abbrev State.Inv (s : State) : Prop :=
  s.FlagsInv ∧ s.HandshakeInv ∧ s.RangeInv ∧ s.ErrorInv ∧ s.MemoryInv ∧ s.FrameInv

/-- The events of one poll cycle: `Transmit` answered `Ok`, the settle ticks, the sequencer posting `Receive`, its
answer, and a last turn of the sequencer, which leaves `Retrying` if the machine is there (R126). -/
def cycleInputs (settle : Nat) (count : Nat) (response : List Byte) : List Input :=
  .transmitOk count :: (List.replicate settle .tick ++ [.sequencer, .receiveOk response, .sequencer])

/-- The events of several cycles, one response each. -/
def cyclesInputs (settle : Nat) (count : Nat) (responses : List (List Byte)) : List Input :=
  responses.flatMap (cycleInputs settle count)

/-- What `n` complete cycles have sent, newest first: `Transmit` of the read frame, then `Receive(280)`, each time
(R127). -/
def cyclesOutputs : Nat → List Output
  | 0 => []
  | n + 1 => .receive 280 :: .transmit readFrame :: cyclesOutputs n

/-- What `RXBUF[i]` holds after responses received one after another into a cleared buffer: the byte of the last
response long enough to hold index `i`, else 0 (R120). -/
def heldByte (responses : List (List Byte)) (i : Nat) : Byte :=
  responses.foldl (fun v r => r.getD i v) 0

end Machine
end Sys2Proof
end

