-- ==== Sys2Proof/Certificates/Slice0/Obligations.lean ====
section
/-! DEFINITION. The statements of this model, each from a rule of the spec, to be proved elsewhere. -/

open Sys2Proof Sys2Proof.Machine

/-! ### Command words -/

/-- Decoding an encoded operation gives it back, and a byte that decodes is the encoding of what it decodes to, so no
two words start the same operation with the same select (30_encoding.md R66, R71). -/
def Obligations.CommandWordsDecodeAndEncodeAgree : Prop :=
  (∀ i : Instr, decode (encode i) = .ok i) ∧
  (∀ (w : Byte) (i : Instr), decode w = .ok i → encode i = w)

/-- Words written out from the opcode map, each with its operation (30_encoding.md R71, R76; 95_test_vectors.md V15). -/
def Obligations.OpcodeMapWordsDecode : Prop :=
  decode 0x01#8 = .ok (.crc .pbuf) ∧ decode 0x09#8 = .ok (.crc .txbuf) ∧ decode 0x11#8 = .ok (.crc .rxbuf) ∧
  decode 0x19#8 = .ok (.crc .reserved) ∧ decode 0x0A#8 = .ok (.enc .txbuf) ∧ decode 0x13#8 = .ok (.val .rxbuf) ∧
  decode 0x0C#8 = .ok (.dec .txbuf) ∧ decode 0x1D#8 = .ok (.rdt .reserved)

/-- R72: exactly the words with `OP` in 0, 6, 7 or one of bits 7 to 5 set are illegal, 236 of the 256; writing one
with `BUSY` = 0 stores it in `CMD` and raises `IllegalOp`, and changes nothing else (`XREQ`, which a raise clears, is
`None` already whenever `BUSY` = 0). -/
def Obligations.IllegalWordRaisesIllegalOp : Prop :=
  (∀ w : Byte, (∃ r, decode w = .error r) ↔
    (w.extractLsb' 0 3 = 0 ∨ w.extractLsb' 0 3 = 6 ∨ w.extractLsb' 0 3 = 7 ∨ w.extractLsb' 5 3 ≠ 0)) ∧
  ((List.range 256).filter fun n => (decode (BitVec.ofNat 8 n)).toOption.isNone).length = 236 ∧
  (∀ (s : State) (w : Byte) (r : DecodeReject) (rest : List Input),
    s.busy = false → decode w = .error r → s.inputs = .host (.wreg .cmd w) :: rest →
    step s = .next { s with
      inputs := rest, cmd := w, errCode := .illegalOp, errCause := .none, xreq := .none, busy := false, done := true })

/-- A step runs the decoded operation: when the host's next transaction writes a command word with `BUSY` = 0, the step
is `exec` of the operation the word decodes to, after the prologue of R135. -/
def Obligations.StepRunsDecodedCommand : Prop :=
  ∀ (s : State) (w : Byte) (i : Instr) (rest : List Input),
    s.busy = false → decode w = .ok i → s.inputs = .host (.wreg .cmd w) :: rest →
    step s = exec i { s with
      inputs := rest, cmd := w, busy := true, done := false, errCode := .none, errCause := .none }

/-- In the state `withFetchWord` makes of any state, the very next step runs the operation of the table's word. -/
def Obligations.FetchWordIsRunByNextStep : Prop :=
  ∀ (s : State) (nbits w : Nat) (i : Instr),
    decodeTableWord nbits w = some i →
    step (s.withFetchWord nbits w) = exec i { s with
      cmd := BitVec.ofNat 8 (w % 2 ^ nbits), busy := true, done := false, errCode := .none, errCause := .none }

/-! ### Reset and registers -/

/-- R39, with the reset column of R11: every register reads 0 after reset but `SETTLE`, which reads 700; the
micro-position is 0, `XREQ` is `None`, and every buffer byte is the arbitrary value of an unwritten byte. -/
def Obligations.ResetValues : Prop :=
  (∀ r : HostReg, (State.reset.register r).toNat = if r = .settle then 700 else 0) ∧
  State.reset.eng = { crc := 0, idx := 0, eidx := 0, bitcnt := 0, phase := .off } ∧
  State.reset.xreq = .none ∧
  (∀ (b : BufId) (i : Nat), State.reset.readByte b i = Config.unwritten State.reset.epoch b i)

/-- The reset input, in any state, running or not: every field at its reset value. That reset forgets which buffer
bytes were written and begins a new epoch of free bytes, and that what was sent and what is to come stay, is the
model's own choice (notes/assumptions/3.md). -/
def Obligations.ResetInputResetsEverything : Prop :=
  ∀ (s : State) (rest : List Input), s.inputs = .reset :: rest →
    step s = .next { State.reset with epoch := s.epoch + 1, inputs := rest, outputs := s.outputs }

/-- The images of `STATUS`, `ERR` and `PSTATE` a host reads (R16, R17, R21, R140, R141; 95_test_vectors.md). -/
def Obligations.StatusAndErrorImages : Prop :=
  (∀ s : State, (s.register .status).toNat =
    4 * s.valid.toNat + 2 * s.done.toNat + s.busy.toNat) ∧
  (∀ s : State, (s.register .err).toNat = 16 * s.errCause.num.toNat + s.errCode.num.toNat) ∧
  ([PState.idle, .sending, .awaitingResponse, .confirmed, .retrying, .exhausted, .transportError].map
    fun p => p.num.toNat) = [0, 1, 2, 3, 4, 5, 6] ∧
  ([ErrCode.none, .frameTooLarge, .messageGenerationFailed, .badResponse, .badOperand, .emptyRange, .illegalOp].map
    fun e => e.num.toNat) = [0, 1, 2, 3, 4, 5, 6] ∧
  ([ErrCause.none, .txFail, .rxFail, .noConfirm, .checksumMismatch].map fun c => c.num.toNat) = [0, 1, 2, 3, 4]

/-- R131: a read of a host register by its number delivers its current value, 0 for the reserved numbers 16 to 31, and
changes nothing in the block; after reset `SETTLE` reads 700. The current value of each register is the state the
register stands for, and the numbers 0 to 15 are in the order of the table of R11; the images of `STATUS` and `ERR`
are those of R16 and R17. -/
def Obligations.RegisterReadReturnsValue : Prop :=
  (∀ (s : State) (r : HostReg) (rest : List Input),
    s.busy = false → s.inputs = .host (.rreg r) :: rest →
    step s = .next { s with inputs := rest, outputs := .register r (s.register r) :: s.outputs }) ∧
  (∀ (s : State) (k : Fin 16), (s.register (.reserved k)).toNat = 0) ∧
  (∀ n : Fin 32, regNumber (regOfNumber n) = n.val) ∧
  ([HostReg.cmd, .arg0, .arg1, .status, .err, .crc, .flen, .reading, .pstate, .attempt, .diagCalc, .diagRecv, .cfg,
    .settle, .timer, .rxcnt].map regNumber) = List.range 16 ∧
  (∀ s : State,
    s.register .cmd = s.cmd ∧ s.register .arg0 = s.arg0 ∧ s.register .arg1 = s.arg1 ∧
    (s.register .status).toNat = 4 * s.valid.toNat + 2 * s.done.toNat + s.busy.toNat ∧
    (s.register .err).toNat = 16 * s.errCause.num.toNat + s.errCode.num.toNat ∧
    s.register .crc = s.eng.crc ∧ s.register .flen = s.flen ∧ s.register .reading = s.reading ∧
    s.register .pstate = s.pstate.num ∧ s.register .attempt = s.attempt ∧
    s.register .diagCalc = s.diagCalc ∧ s.register .diagRecv = s.diagRecv ∧
    s.register .cfg = s.cfg ∧ s.register .settle = s.settle ∧ s.register .timer = s.timer ∧
    s.register .rxcnt = s.rxcnt) ∧
  (State.reset.register .settle).toNat = 700

/-- R132: `ARG0`, `ARG1`, `CFG` and `SETTLE` take the value written and nothing else happens; a write of `CMD` starts
an operation; a write of any other number changes nothing. -/
def Obligations.RegisterWrites : Prop :=
  ∀ (s : State) (rest : List Input), s.busy = false →
    (∀ v, s.inputs = .host (.wreg .arg0 v) :: rest → step s = .next { s with inputs := rest, arg0 := v }) ∧
    (∀ v, s.inputs = .host (.wreg .arg1 v) :: rest → step s = .next { s with inputs := rest, arg1 := v }) ∧
    (∀ v, s.inputs = .host (.wreg .cfg v) :: rest → step s = .next { s with inputs := rest, cfg := v }) ∧
    (∀ v, s.inputs = .host (.wreg .settle v) :: rest → step s = .next { s with inputs := rest, settle := v }) ∧
    (∀ w, s.inputs = .host (.wreg .cmd w) :: rest → step s = startOperation w { s with inputs := rest }) ∧
    (∀ (r : HostReg) (v : BitVec r.width), regNumber r ∉ [0, 1, 2, 12, 13] →
      s.inputs = .host (.wreg r v) :: rest → step s = .next { s with inputs := rest })

/-- R28: the reserved numbers 16 to 31 read 0 and ignore a write; a write to a read-only register (3 to 11, 14, 15)
changes nothing and raises nothing. -/
def Obligations.ReadOnlyAndReservedWritesIgnored : Prop :=
  (∀ (s : State) (k : Fin 16), regNumber (.reserved k) = 16 + k.val ∧ (s.register (.reserved k)).toNat = 0) ∧
  (∀ (s : State) (r : HostReg) (v : BitVec r.width) (rest : List Input),
    s.busy = false → regNumber r ∈ [3, 4, 5, 6, 7, 8, 9, 10, 11, 14, 15] ∨ 16 ≤ regNumber r →
    s.inputs = .host (.wreg r v) :: rest → step s = .next { s with inputs := rest })

/-- The host's buffer transactions (R133, R134): `RBUF` delivers the byte and changes nothing; `WBUF` stores it, every
other byte of every buffer reads as before, and no register changes. -/
def Obligations.BufferTransactions : Prop :=
  ∀ (s : State) (b : BufId) (i : Nat) (rest : List Input), s.busy = false → i < b.cap →
    (s.inputs = .host (.rbuf b i) :: rest →
      step s = .next { s with inputs := rest, outputs := .byte b i (s.readByte b i) :: s.outputs }) ∧
    (∀ v, s.inputs = .host (.wbuf b i v) :: rest →
      ∃ t, step s = .next t ∧
        (∀ c j, t.readByte c j = if c = b ∧ j = i then v else s.readByte c j) ∧
        t = { s with inputs := rest, pbuf := t.pbuf, txbuf := t.txbuf, rxbuf := t.rxbuf })

/-- A host buffer transaction with an index outside the buffer is outside the contract and has no meaning (R42). -/
def Obligations.BufferIndexOutsideIsRefused : Prop :=
  ∀ (s : State) (b : BufId) (i : Nat) (rest : List Input), s.busy = false → b.cap ≤ i →
    (s.inputs = .host (.rbuf b i) :: rest → step s = .refused .bufferIndexOutOfRange) ∧
    (∀ v, s.inputs = .host (.wbuf b i v) :: rest → step s = .refused .bufferIndexOutOfRange)

/-- R138: while `BUSY` = 1 the host may read `STATUS`, `PSTATE`, `ATTEMPT` and `TIMER`, each giving its current value;
every other host transaction has no meaning. -/
def Obligations.HostShutOutWhileBusy : Prop :=
  ∀ (s : State) (rest : List Input), s.busy = true →
    (∀ r, regNumber r ∈ [3, 8, 9, 14] → s.inputs = .host (.rreg r) :: rest →
      step s = .next { s with inputs := rest, outputs := .register r (s.register r) :: s.outputs }) ∧
    (∀ r, regNumber r ∉ [3, 8, 9, 14] → s.inputs = .host (.rreg r) :: rest →
      step s = .refused .hostAccessWhileBusy) ∧
    (∀ (r : HostReg) (v : BitVec r.width), s.inputs = .host (.wreg r v) :: rest →
      step s = .refused .hostAccessWhileBusy) ∧
    (∀ b i, s.inputs = .host (.rbuf b i) :: rest → step s = .refused .hostAccessWhileBusy) ∧
    (∀ b i v, s.inputs = .host (.wbuf b i v) :: rest → step s = .refused .hostAccessWhileBusy)

/-! ### Checksum Engine and CRC -/

/-- R81, R82, R83: the three micro-operations of the Checksum Engine. -/
def Obligations.EngineMicroOperations : Prop :=
  (∀ (b : BufId) (first last : Nat), first ≤ last → last < b.cap →
    (Engine.seed first last).crc = 0xFFFF ∧ (Engine.seed first last).idx.toNat = first ∧
    (Engine.seed first last).eidx.toNat = last ∧ (Engine.seed first last).bitcnt = 0 ∧
    (Engine.seed first last).phase = .absorb) ∧
  (∀ (rd : Nat → Byte) (g : Engine), g.phase = .absorb →
    g.micro rd = { g with crc := g.crc ^^^ (rd g.idx.toNat).setWidth 16, bitcnt := 0, phase := .shift }) ∧
  (∀ (rd : Nat → Byte) (g : Engine), g.phase = .shift →
    (g.micro rd).crc = (if g.crc.getLsbD 0 then (g.crc >>> 1) ^^^ 0xA001 else g.crc >>> 1) ∧
    (g.micro rd).eidx = g.eidx ∧
    (g.bitcnt.toNat < 7 →
      (g.micro rd).bitcnt.toNat = g.bitcnt.toNat + 1 ∧ (g.micro rd).phase = .shift ∧ (g.micro rd).idx = g.idx) ∧
    (g.bitcnt.toNat = 7 → g.idx = g.eidx →
      (g.micro rd).phase = .off ∧ (g.micro rd).idx = g.idx ∧ (g.micro rd).bitcnt = g.bitcnt) ∧
    (g.bitcnt.toNat = 7 → g.idx ≠ g.eidx →
      (g.micro rd).phase = .absorb ∧ (g.micro rd).idx = g.idx + 1 ∧ (g.micro rd).bitcnt = 0))

/-- One absorb and eight shifts take `CRC` from `c` to `crc_byte(c, d)` and end the byte: at the last index the engine
stops, before it the next byte is pending (40_crc.md R83, R87). -/
def Obligations.AbsorbAndEightShiftsProcessOneByte : Prop :=
  ∀ (rd : Nat → Byte) (g : Engine), g.phase = .absorb →
    Engine.iterate rd 9 g =
      if g.idx = g.eidx then { g with crc := crcByte g.crc (rd g.idx.toNat), bitcnt := 7, phase := .off }
      else { g with crc := crcByte g.crc (rd g.idx.toNat), idx := g.idx + 1, bitcnt := 0 }

/-- R87: for every buffer content and every range inside the buffer, the micro-steps end with `CRC` the checksum of the
range, `IDX` its last index and `CPH` = 0. -/
def Obligations.EngineRunComputesPureChecksum : Prop :=
  ∀ (s : State) (b : BufId) (first last : Nat), first ≤ last → last < b.cap →
    (s.crcRun b first last).eng.crc = s.crcRange b first last ∧
    s.crcRange b first last = crc16 ((List.range' first (last - first + 1)).map (s.readByte b)) ∧
    (s.crcRun b first last).eng.idx.toNat = last ∧
    (s.crcRun b first last).eng.phase = .off

/-- The sequencing of a range computation (40_crc.md R84): after the seed, the engine is on for exactly one absorb and
eight shifts per byte of the range. The count describes the structure, not the timing (R176). -/
def Obligations.EngineRunEndsAfterNineStepsPerByte : Prop :=
  ∀ (rd : Nat → Byte) (first last : Nat), first ≤ last → last < 512 →
    (∀ k, k < 9 * (last - first + 1) → (Engine.iterate rd k (Engine.seed first last)).phase ≠ .off) ∧
    (Engine.iterate rd (9 * (last - first + 1)) (Engine.seed first last)).phase = .off

/-- Absorbing a byte and shifting eight times is eight steps of a serial register that takes the byte's bits least
significant first (40_crc.md R89 (b)). -/
def Obligations.EngineIsASerialRegister : Prop :=
  ∀ (c : Half) (d : Byte),
    crcByte c d = (List.range 8).foldl
      (fun (r : Half) k => (r >>> 1) ^^^ (if xor (r.getLsbD 0) (d.getLsbD k) then 0xA001#16 else 0#16)) c

/-- A list followed by its own checksum, low byte first, has checksum 0 (40_crc.md R89 (c)). -/
def Obligations.ChecksumResidueIsZero : Prop :=
  ∀ m : List Byte, m ≠ [] → crc16 (m ++ [(crc16 m).extractLsb' 0 8, (crc16 m).extractLsb' 8 8]) = 0

/-- R85: the operation CRC. `BUF` = 3, then `ARG1` outside the buffer, then `ARG0 > ARG1` raise; otherwise `CRC` holds the
checksum of `b[ARG0..ARG1]`, the engine is at rest at the last index, and nothing else changes. -/
def Obligations.CrcComputesRangeChecksum : Prop :=
  ∀ s : State,
    exec (.crc .reserved) s = .next { s with
      errCode := .badOperand, errCause := .none, xreq := .none, busy := false, done := true } ∧
    ∀ b : BufId,
      (b.cap ≤ s.arg1.toNat → exec (.crc b.sel) s = .next { s with
        errCode := .badOperand, errCause := .none, xreq := .none, busy := false, done := true }) ∧
      (s.arg1.toNat < b.cap → s.arg1.toNat < s.arg0.toNat → exec (.crc b.sel) s = .next { s with
        errCode := .emptyRange, errCause := .none, xreq := .none, busy := false, done := true }) ∧
      (s.arg1.toNat < b.cap → s.arg0.toNat ≤ s.arg1.toNat → exec (.crc b.sel) s = .next { s with
        eng := { crc := s.crcRange b s.arg0.toNat s.arg1.toNat
                 idx := BitVec.ofNat 9 s.arg1.toNat, eidx := BitVec.ofNat 9 s.arg1.toNat, bitcnt := 7, phase := .off }
        busy := false, done := true })

/-- The checksum is a pure function of its range (40_crc.md R80, R89 (a)): two machines that agree on the operands and on
the bytes of the range end with the same engine, whatever else they hold. -/
def Obligations.ChecksumDependsOnRangeOnly : Prop :=
  ∀ (s s' : State) (b : BufId), s.arg0 = s'.arg0 → s.arg1 = s'.arg1 →
    s.arg1.toNat < b.cap → s.arg0.toNat ≤ s.arg1.toNat →
    (∀ i, s.arg0.toNat ≤ i → i ≤ s.arg1.toNat → s.readByte b i = s'.readByte b i) →
    ∃ t t', exec (.crc b.sel) s = .next t ∧ exec (.crc b.sel) s' = .next t' ∧ t.eng = t'.eng

/-! ### Frame Encoder and ENC -/

/-- R90, R91, R93: the operation ENC, for every select. A frame that would not fit `TXBUF` raises `FrameTooLarge` before
anything but `FLEN` is written. Otherwise `TXBUF[0..N+6]` is the frame of `PBUF[0..N]`, byte by byte as the pseudocode
writes it; `FLEN` = `N + 7`, `CRC` the frame's checksum; the rest of `TXBUF` reads as before, and nothing else but the
engine, `BUSY` and `DONE` changes. -/
def Obligations.EncBuildsFrame : Prop :=
  ∀ (sel : BufSel) (s : State) (n : Nat), s.arg0.toNat = n →
    (n + 7 > 255 → exec (.enc sel) s = .next { s with
      flen := 0, errCode := .frameTooLarge, errCause := .none, xreq := .none, busy := false, done := true }) ∧
    (n + 7 ≤ 255 → ∃ t, exec (.enc sel) s = .next t ∧
      t.readByte .txbuf 0 = 0x55 ∧ t.readByte .txbuf 1 = 0x02 ∧ (t.readByte .txbuf 2).toNat = n ∧
      (∀ i, i ≤ n → t.readByte .txbuf (3 + i) = s.readByte .pbuf i) ∧
      t.eng.crc = crc16 (0x02#8 :: BitVec.ofNat 8 n :: s.readBytes .pbuf 0 (n + 1)) ∧
      t.readByte .txbuf (4 + n) = t.eng.crc.extractLsb' 0 8 ∧
      t.readByte .txbuf (5 + n) = t.eng.crc.extractLsb' 8 8 ∧
      t.readByte .txbuf (6 + n) = 0xAA ∧
      (∀ i, n + 7 ≤ i → t.readByte .txbuf i = s.readByte .txbuf i) ∧
      t.flen.toNat = n + 7 ∧ t.eng.phase = .off ∧
      t = { s with txbuf := t.txbuf, eng := t.eng, flen := t.flen, busy := false, done := true })

/-- R92: after ENC, the checksum recomputed over what is in the frame, indices 1 to `3 + N`, is the one stored in it. -/
def Obligations.EncodedChecksumMatchesFrame : Prop :=
  ∀ (sel : BufSel) (s : State), s.arg0.toNat + 7 ≤ 255 →
    ∃ t, exec (.enc sel) s = .next t ∧
      t.crcRange .txbuf 1 (3 + s.arg0.toNat) =
        t.readByte .txbuf (5 + s.arg0.toNat) ++ t.readByte .txbuf (4 + s.arg0.toNat)

/-- R95, the frame round trip. After ENC the frame in `TXBUF` is the wire frame of the payload, re-parsing it recovers
the payload and `N`, a single-byte payload has length field 0 and `FLEN` is `TXBUF[2] + 7`; then VAL on `TXBUF` with the
trailer index `N + 5`, which the host writes to `ARG0` between the two, sets `VALID` and no error. -/
def Obligations.EncodedFrameValidates : Prop :=
  ∀ (sel : BufSel) (s : State) (n : Nat), s.arg0.toNat = n → n + 7 ≤ 255 →
    ∃ t u, exec (.enc sel) s = .next t ∧
      t.readBytes .txbuf 0 (n + 7) = frameOf (s.readBytes .pbuf 0 (n + 1)) ∧
      framePayload (t.readBytes .txbuf 0 (n + 7)) = s.readBytes .pbuf 0 (n + 1) ∧
      t.readByte .txbuf 0 = 0x55 ∧ t.readByte .txbuf 1 = 0x02 ∧ t.readByte .txbuf (6 + n) = 0xAA ∧
      (t.readByte .txbuf 2).toNat = n ∧ (n = 0 → t.readByte .txbuf 2 = 0x00) ∧
      t.flen.toNat = (t.readByte .txbuf 2).toNat + 7 ∧
      exec (.val .txbuf) { t with arg0 := BitVec.ofNat 16 (n + 5) } = .next u ∧
      u.valid = true ∧ u.errCode = s.errCode ∧
      u.diagCalc = t.eng.crc ∧ u.diagRecv = t.eng.crc

/-- The wire frame by itself (30_encoding.md R61, R62, R65): a reader of the frame of any payload of 1 to 249 bytes gets
the payload, the frame's length and the place of the checksum back from the frame alone, and the checksum it finds
covers command to payload. -/
def Obligations.WireFrameRoundTrip : Prop :=
  ∀ payload : List Byte, 1 ≤ payload.length → payload.length ≤ 249 →
    framePayload (frameOf payload) = payload ∧
    frameLength (frameOf payload) = (frameOf payload).length ∧
    (frameOf payload)[2]? = some (BitVec.ofNat 8 (payload.length - 1)) ∧
    (frameOf payload)[0]? = some 0x55 ∧ (frameOf payload)[1]? = some 0x02 ∧
    (frameOf payload)[(frameOf payload).length - 1]? = some 0xAA ∧
    ((frameOf payload).getD (trailerIndex (frameOf payload)) 0) ++
      ((frameOf payload).getD (trailerIndex (frameOf payload) - 1) 0) =
      crc16 (((frameOf payload).drop 1).take (payload.length + 2))

/-! ### Frame Validator and VAL -/

/-- R100 with its operand check R101: the operation VAL. `VALID` is cleared; `BUF` = 3 and a trailer index below 3 or
outside the buffer raise; otherwise the checksum over `[1, ti - 2]` is compared with the stored one. A mismatch is a
result, not an error (R103). Nothing else changes. -/
def Obligations.ValComparesChecksums : Prop :=
  ∀ s : State,
    exec (.val .reserved) s = .next { s with
      valid := false, errCode := .badOperand, errCause := .none, xreq := .none, busy := false, done := true } ∧
    ∀ b : BufId,
      (s.arg0.toNat < 3 ∨ b.cap ≤ s.arg0.toNat → exec (.val b.sel) s = .next { s with
        valid := false, errCode := .badOperand, errCause := .none, xreq := .none, busy := false, done := true }) ∧
      (3 ≤ s.arg0.toNat → s.arg0.toNat < b.cap →
        ∃ computed stored : Half,
          computed = crc16 ((List.range' 1 (s.arg0.toNat - 2)).map (s.readByte b)) ∧
          stored = s.readByte b s.arg0.toNat ++ s.readByte b (s.arg0.toNat - 1) ∧
          exec (.val b.sel) s = .next { s with
            eng := { crc := computed, idx := BitVec.ofNat 9 (s.arg0.toNat - 2), eidx := BitVec.ofNat 9 (s.arg0.toNat - 2)
                     bitcnt := 7, phase := .off }
            diagCalc := computed, diagRecv := stored, valid := decide (computed = stored), busy := false, done := true })

/-! ### Byte-Order Decoder and DEC -/

/-- R106, with the two wire orders of R105: the operation DEC. `BUF` = 3 and an offset with `ARG0 + 3` outside the buffer
raise; otherwise `READING` takes the four bytes at any index, unaligned, in the order `CFG.WIRE_BE` names, and nothing
else changes. -/
def Obligations.DecDeliversReading : Prop :=
  ∀ s : State,
    exec (.dec .reserved) s = .next { s with
      errCode := .badOperand, errCause := .none, xreq := .none, busy := false, done := true } ∧
    ∀ b : BufId,
      (b.cap ≤ s.arg0.toNat + 3 → exec (.dec b.sel) s = .next { s with
        errCode := .badOperand, errCause := .none, xreq := .none, busy := false, done := true }) ∧
      (s.arg0.toNat + 3 < b.cap → ∃ v : Word32,
        exec (.dec b.sel) s = .next { s with reading := v, busy := false, done := true } ∧
        (s.cfg.getLsbD 1 = false → ∀ k, k < 4 → v.extractLsb' (8 * k) 8 = s.readByte b (s.arg0.toNat + k)) ∧
        (s.cfg.getLsbD 1 = true → ∀ k, k < 4 → v.extractLsb' (24 - 8 * k) 8 = s.readByte b (s.arg0.toNat + k)))

/-- Every bit pattern passes through the decoder in both wire orders, and no two byte sequences give one value
(43_float_decoder.md R105, R108). -/
def Obligations.ReadingAssemblyIsLossless : Prop :=
  ∀ be : Bool,
    (∀ v : Word32, ∃ b0 b1 b2 b3, wireWord be b0 b1 b2 b3 = v) ∧
    (∀ b0 b1 b2 b3 c0 c1 c2 c3, wireWord be b0 b1 b2 b3 = wireWord be c0 c1 c2 c3 →
      b0 = c0 ∧ b1 = c1 ∧ b2 = c2 ∧ b3 = c3)

/-! ### Poll Loop and RDT -/

/-- R111, R94: the start of RDT, for every select and every state: `RXBUF` is cleared, the counters are 0, the read frame
`55 02 00 00 D0 00 AA` is built in `TXBUF` and posted, and nothing else changes. -/
def Obligations.RdtStartsByTransmittingReadFrame : Prop :=
  ∀ (sel : BufSel) (s : State),
    ∃ t, exec (.rdt sel) s = .next t ∧
      (∀ i, i < 280 → t.readByte .rxbuf i = 0) ∧
      t.readBytes .txbuf 0 7 = [0x55#8, 0x02#8, 0x00#8, 0x00#8, 0xD0#8, 0x00#8, 0xAA#8] ∧
      (∀ i, 7 ≤ i → t.readByte .txbuf i = s.readByte .txbuf i) ∧
      t.eng.crc = 0x00D0 ∧ t.eng.phase = .off ∧
      t = { s with
        txbuf := t.txbuf, rxbuf := t.rxbuf, eng := t.eng, flen := 7, rxcnt := 0, attempt := 0, timer := 0
        pstate := .sending, xreq := .tx
        outputs := .transmit [0x55#8, 0x02#8, 0x00#8, 0x00#8, 0xD0#8, 0x00#8, 0xAA#8] :: s.outputs }

/-- R116: an `Ok` answer to `Transmit`, whatever its count, loads `TIMER` from `SETTLE` and enters `AwaitingResponse`. -/
def Obligations.TransmitOkStartsSettleWait : Prop :=
  ∀ (s : State) (count : Nat) (rest : List Input),
    s.pstate = .sending → s.xreq = .tx → s.inputs = .transmitOk count :: rest →
    step s = .next { s with inputs := rest, xreq := .none, timer := s.settle, pstate := .awaitingResponse }

/-- R117 and R121 with R125: an `Err` answer ends the RDT in `TransportError` with `BadResponse` and the failing step as
cause; no request is posted, `READING`, `RXBUF`, `RXCNT` and `ATTEMPT` stay. -/
def Obligations.TransportErrorEndsRead : Prop :=
  (∀ (s : State) (rest : List Input),
    s.pstate = .sending → s.xreq = .tx → s.inputs = .transmitErr :: rest →
    step s = .next { s with
      inputs := rest, xreq := .none, pstate := .transportError, timer := 0
      errCode := .badResponse, errCause := .txFail, busy := false, done := true }) ∧
  (∀ (s : State) (rest : List Input),
    s.pstate = .awaitingResponse → s.xreq = .rx → s.inputs = .receiveErr :: rest →
    step s = .next { s with
      inputs := rest, xreq := .none, pstate := .transportError, timer := 0
      errCode := .badResponse, errCause := .rxFail, busy := false, done := true })

/-- R118: a tick counts `TIMER` down in the settle wait and changes nothing in any other state; while ticks are left a
turn of the sequencer does nothing; and the wait a `Transmit` answered `Ok` begins lasts `SETTLE` ticks, none with
`SETTLE` = 0. -/
def Obligations.TickCountsSettleWait : Prop :=
  (∀ (s : State) (rest : List Input),
    s.pstate = .awaitingResponse → s.xreq = .none → s.timer ≠ 0 → s.inputs = .tick :: rest →
    step s = .next { s with inputs := rest, timer := s.timer - 1 }) ∧
  (∀ (s : State) (rest : List Input),
    ¬ (s.pstate = .awaitingResponse ∧ s.xreq = .none ∧ s.timer ≠ 0) → s.inputs = .tick :: rest →
    step s = .next { s with inputs := rest }) ∧
  (∀ (s : State) (rest : List Input),
    s.pstate = .awaitingResponse → s.xreq = .none → s.timer ≠ 0 → s.inputs = .sequencer :: rest →
    step s = .next { s with inputs := rest }) ∧
  (∀ (s : State) (count : Nat) (rest : List Input),
    s.pstate = .sending → s.xreq = .tx →
    s.inputs = .transmitOk count :: (List.replicate s.settle.toNat .tick ++ rest) →
    Sys2Proof.core.run (1 + s.settle.toNat) s = .next { s with
      inputs := rest, xreq := .none, timer := 0, pstate := .awaitingResponse })

/-- R119: with the settle wait over, the sequencer posts `Receive(280)`; nothing else changes. -/
def Obligations.SettledSequencerPostsReceive : Prop :=
  ∀ s : State, s.busy = true → s.pstate = .awaitingResponse → s.xreq = .none → s.timer = 0 →
    (s.inputs = [] → step s = .next { s with xreq := .rx, outputs := .receive 280 :: s.outputs }) ∧
    (∀ rest, s.inputs = .sequencer :: rest →
      step s = .next { s with inputs := rest, xreq := .rx, outputs := .receive 280 :: s.outputs })

/-- `Receive` answers `Ok(bytes)` (R120) and the marker decides (R113, R114, R123, R124): with `CFG.STRICT` = 0 the marker
`0x22` confirms and `READING` takes `RXBUF[11..14]`; with any other marker, strict or not, the read is retried, or after
the fourth cycle ends exhausted. In each case `RXBUF` holds the bytes received over what it held, and nothing else changes. -/
def Obligations.ReceiveOkMarkerDecides : Prop :=
  ∀ (s : State) (bytes : List Byte) (rest : List Input) (held : Nat → Byte),
    s.pstate = .awaitingResponse → s.xreq = .rx → bytes.length ≤ 280 → s.inputs = .receiveOk bytes :: rest →
    (∀ i, held i = bytes.getD i (s.readByte .rxbuf i)) →
    (held 1 = 0x22 → s.cfg.getLsbD 0 = false →
      ∃ t, step s = .next t ∧ (∀ i, t.readByte .rxbuf i = held i) ∧
        t = { s with
          inputs := rest, rxbuf := t.rxbuf, rxcnt := BitVec.ofNat 9 bytes.length, attempt := s.attempt + 1
          xreq := .none, pstate := .confirmed
          reading := wireWord (s.cfg.getLsbD 1) (held 11) (held 12) (held 13) (held 14)
          busy := false, done := true }) ∧
    (held 1 ≠ 0x22 → s.attempt.toNat < 3 →
      ∃ t, step s = .next t ∧ (∀ i, t.readByte .rxbuf i = held i) ∧
        t = { s with
          inputs := rest, rxbuf := t.rxbuf, rxcnt := BitVec.ofNat 9 bytes.length, attempt := s.attempt + 1
          xreq := .none, pstate := .retrying }) ∧
    (held 1 ≠ 0x22 → s.attempt.toNat = 3 →
      ∃ t, step s = .next t ∧ (∀ i, t.readByte .rxbuf i = held i) ∧
        t = { s with
          inputs := rest, rxbuf := t.rxbuf, rxcnt := BitVec.ofNat 9 bytes.length, attempt := s.attempt + 1
          xreq := .none, pstate := .exhausted, errCode := .badResponse, errCause := .noConfirm
          busy := false, done := true })

/-- R128: with `CFG.STRICT` = 1 and the marker `0x22`, the checksum of the response decides, with the trailer index
`RXBUF[2] + 5`: `CRC`, `DIAG_CALC`, `DIAG_RECV` and `VALID` are written as VAL writes them; a match confirms, a mismatch is
retried, and after the fourth cycle ends with `ChecksumMismatch`. -/
def Obligations.ReceiveOkStrictChecksumDecides : Prop :=
  ∀ (s : State) (bytes : List Byte) (rest : List Input) (held : Nat → Byte) (n : Nat) (computed stored : Half),
    s.pstate = .awaitingResponse → s.xreq = .rx → bytes.length ≤ 280 → s.inputs = .receiveOk bytes :: rest →
    (∀ i, held i = bytes.getD i (s.readByte .rxbuf i)) →
    held 1 = 0x22 → s.cfg.getLsbD 0 = true → (held 2).toNat = n →
    computed = crc16 ((List.range' 1 (n + 3)).map held) → stored = held (n + 5) ++ held (n + 4) →
    ∃ t, step s = .next t ∧ (∀ i, t.readByte .rxbuf i = held i) ∧
      (computed = stored → t = { s with
        inputs := rest, rxbuf := t.rxbuf, rxcnt := BitVec.ofNat 9 bytes.length, attempt := s.attempt + 1
        xreq := .none, eng := { crc := computed, idx := BitVec.ofNat 9 (n + 3), eidx := BitVec.ofNat 9 (n + 3)
                                bitcnt := 7, phase := .off }
        diagCalc := computed, diagRecv := stored, valid := true, pstate := .confirmed
        reading := wireWord (s.cfg.getLsbD 1) (held 11) (held 12) (held 13) (held 14)
        busy := false, done := true }) ∧
      (computed ≠ stored → s.attempt.toNat < 3 → t = { s with
        inputs := rest, rxbuf := t.rxbuf, rxcnt := BitVec.ofNat 9 bytes.length, attempt := s.attempt + 1
        xreq := .none, eng := { crc := computed, idx := BitVec.ofNat 9 (n + 3), eidx := BitVec.ofNat 9 (n + 3)
                                bitcnt := 7, phase := .off }
        diagCalc := computed, diagRecv := stored, valid := false, pstate := .retrying }) ∧
      (computed ≠ stored → s.attempt.toNat = 3 → t = { s with
        inputs := rest, rxbuf := t.rxbuf, rxcnt := BitVec.ofNat 9 bytes.length, attempt := s.attempt + 1
        xreq := .none, eng := { crc := computed, idx := BitVec.ofNat 9 (n + 3), eidx := BitVec.ofNat 9 (n + 3)
                                bitcnt := 7, phase := .off }
        diagCalc := computed, diagRecv := stored, valid := false, pstate := .exhausted
        errCode := .badResponse, errCause := .checksumMismatch, busy := false, done := true })

/-- R122: in `Retrying` the sequencer sends again the frame that stands in `TXBUF[0..FLEN-1]`; nothing is rebuilt. -/
def Obligations.RetryingSendsSameFrameAgain : Prop :=
  ∀ s : State, s.busy = true → s.pstate = .retrying →
    (s.inputs = [] → step s = .next { s with
      pstate := .sending, xreq := .tx
      outputs := .transmit ((List.range s.flen.toNat).map (s.readByte .txbuf)) :: s.outputs }) ∧
    (∀ rest, s.inputs = .sequencer :: rest → step s = .next { s with
      inputs := rest, pstate := .sending, xreq := .tx
      outputs := .transmit ((List.range s.flen.toNat).map (s.readByte .txbuf)) :: s.outputs })

/-- A `Receive` answer of more than 280 bytes breaks the transport's contract and has no move (R137). -/
def Obligations.OverlongReceiveIsRefused : Prop :=
  ∀ (s : State) (bytes : List Byte) (rest : List Input),
    s.pstate = .awaitingResponse → s.xreq = .rx → 280 < bytes.length → s.inputs = .receiveOk bytes :: rest →
    step s = .refused .receiveTooLong

/-- Answers no request waits for, ticks outside the settle wait and turns of an idle sequencer change nothing: only the
host and reset move an idle machine (60_exceptions.md R147, R151, 70_reset_and_hazards.md R162, 10_state.md R20). That an
answer no rule waits for is dropped at any time, not only after a reset, is the model's reading
(notes/assumptions/6.md). -/
def Obligations.IdleMachineIgnoresEverythingButHost : Prop :=
  ∀ (s : State) (e : Input) (rest : List Input), s.Inv → s.busy = false → s.inputs = e :: rest →
    (∀ t, e ≠ .host t) → e ≠ .reset → step s = .next { s with inputs := rest }

/-- While a request is outstanding only its answer and reset move the machine (10_state.md R30,
70_reset_and_hazards.md R160): if the world stays silent the read hangs (R170); turns of the sequencer, ticks and
answers to the other kind of request change nothing; a host transaction that has a meaning only reads. That an
answer of the other kind is dropped is the model's reading (notes/assumptions/6.md). -/
def Obligations.OutstandingRequestBlocksSequencer : Prop :=
  ∀ s : State, s.Inv → s.xreq ≠ .none →
    (s.inputs = [] → step s = .next s) ∧
    (∀ e rest, s.inputs = e :: rest → (∀ t, e ≠ .host t) → e ≠ .reset →
      (s.xreq = .tx → (∀ count, e ≠ .transmitOk count) ∧ e ≠ .transmitErr) →
      (s.xreq = .rx → (∀ bytes, e ≠ .receiveOk bytes) ∧ e ≠ .receiveErr) →
      step s = .next { s with inputs := rest }) ∧
    (∀ x rest t, s.inputs = .host x :: rest → step s = .next t →
      t = { s with inputs := rest, outputs := t.outputs })

/-! ### The whole machine -/

/-- The invariant of the reachable states holds at reset. -/
def Obligations.InvariantHoldsAtReset : Prop := State.reset.Inv

/-- Every step keeps the invariant: flags, handshake, ranges, error fields, canonical memories, the read frame. -/
def Obligations.EveryStepKeepsInvariant : Prop :=
  ∀ s t : State, s.Inv → step s = .next t → t.Inv

/-- `PSTATE` changes only by a row of the transition table (44_poll_fsm.md, section 2), or by reset. -/
def Obligations.PollStateMovesOnlyByTable : Prop :=
  ∀ s t : State, s.Inv → step s = .next t → t.pstate ≠ s.pstate →
    (s.busy = false ∧ t.pstate = .sending ∧
      ∃ sel, s.inputs.head? = some (.host (.wreg .cmd (encode (.rdt sel))))) ∨
    (s.pstate = .sending ∧ t.pstate = .awaitingResponse ∧ ∃ count, s.inputs.head? = some (.transmitOk count)) ∨
    (s.pstate = .sending ∧ t.pstate = .transportError ∧ s.inputs.head? = some .transmitErr) ∨
    (s.pstate = .awaitingResponse ∧ s.xreq = .rx ∧
      (t.pstate = .confirmed ∨ t.pstate = .retrying ∧ t.attempt.toNat < 4 ∨ t.pstate = .exhausted ∧ t.attempt.toNat = 4) ∧
      ∃ bytes, s.inputs.head? = some (.receiveOk bytes)) ∨
    (s.pstate = .awaitingResponse ∧ s.xreq = .rx ∧ t.pstate = .transportError ∧
      s.inputs.head? = some .receiveErr) ∨
    (s.pstate = .retrying ∧ t.pstate = .sending ∧ (s.inputs = [] ∨ s.inputs.head? = some .sequencer)) ∨
    (t.pstate = .idle ∧ s.inputs.head? = some .reset)

/-- `READING` is written by DEC, by the `Confirmed` transition of RDT and by reset, and by nothing else
(10_state.md R14). -/
def Obligations.ReadingWrittenOnlyByDecAndConfirmed : Prop :=
  ∀ s t : State, step s = .next t → t.reading ≠ s.reading →
    (∃ sel, s.inputs.head? = some (.host (.wreg .cmd (encode (.dec sel))))) ∨
    (s.pstate = .awaitingResponse ∧ t.pstate = .confirmed ∧ ∃ bytes, s.inputs.head? = some (.receiveOk bytes)) ∨
    s.inputs.head? = some .reset

/-- What the sequencer never writes (R11, R12, R24, R25, R26, R41): `CMD`, `ARG0`, `ARG1`, `CFG`, `SETTLE` change only by the
host's write of that register, and `PBUF` only by the host's `WBUF`, or by reset. -/
def Obligations.SequencerNeverWritesHostState : Prop :=
  ∀ s t : State, step s = .next t → s.inputs.head? ≠ some .reset →
    (t.cmd ≠ s.cmd → s.inputs.head? = some (.host (.wreg .cmd t.cmd))) ∧
    (t.arg0 ≠ s.arg0 → s.inputs.head? = some (.host (.wreg .arg0 t.arg0))) ∧
    (t.arg1 ≠ s.arg1 → s.inputs.head? = some (.host (.wreg .arg1 t.arg1))) ∧
    (t.cfg ≠ s.cfg → s.inputs.head? = some (.host (.wreg .cfg t.cfg))) ∧
    (t.settle ≠ s.settle → s.inputs.head? = some (.host (.wreg .settle t.settle))) ∧
    (t.pbuf ≠ s.pbuf → ∃ i v, s.inputs.head? = some (.host (.wbuf .pbuf i v)))

/-- R143: no execution raises `MessageGenerationFailed`. -/
def Obligations.MessageGenerationFailedNeverRaised : Prop :=
  ∀ s t : State, step s = .next t → t.errCode = .messageGenerationFailed → s.errCode = .messageGenerationFailed

/-- Raising an error (60_exceptions.md R149) writes its code, and its cause with `BadResponse` or 0 with any other error,
drops the request, ends the operation, and touches nothing else. So every step of the machine that runs an operation
(a start, or any step with `BUSY` = 1) and leaves an error has ended the operation: `BUSY` = 0, `DONE` = 1, no request
outstanding, a cause exactly with `BadResponse` (R141), `READING` as before (R150). -/
def Obligations.RaiseEndsOperationWithError : Prop :=
  (∀ (s : State) (cause : ErrCause), s.raise .badResponse cause = { s with
    errCode := .badResponse, errCause := cause, xreq := .none, busy := false, done := true }) ∧
  (∀ (s : State) (code : ErrCode) (cause : ErrCause), code ≠ .badResponse → s.raise code cause = { s with
    errCode := code, errCause := .none, xreq := .none, busy := false, done := true }) ∧
  (∀ s t : State, s.Inv → step s = .next t → t.errCode ≠ .none →
    (s.busy = true ∨ ∃ w, s.inputs.head? = some (.host (.wreg .cmd w))) →
    t.busy = false ∧ t.done = true ∧ t.xreq = .none ∧ (t.errCause ≠ .none ↔ t.errCode = .badResponse) ∧
    t.reading = s.reading)

/-- `ERR`, `DONE` and the results stay until the next accepted start (60_exceptions.md R151, 70_reset_and_hazards.md R168):
on an idle machine, a step that is neither a write of `CMD` nor reset leaves them all. -/
def Obligations.ResultsStayUntilNextStart : Prop :=
  ∀ s t : State, s.Inv → s.busy = false → step s = .next t →
    (∀ w, s.inputs.head? ≠ some (.host (.wreg .cmd w))) → s.inputs.head? ≠ some .reset →
    t.errCode = s.errCode ∧ t.errCause = s.errCause ∧ t.busy = s.busy ∧ t.done = s.done ∧ t.valid = s.valid ∧
    t.eng = s.eng ∧ t.flen = s.flen ∧ t.reading = s.reading ∧ t.pstate = s.pstate ∧ t.attempt = s.attempt ∧
    t.diagCalc = s.diagCalc ∧ t.diagRecv = s.diagRecv ∧ t.rxcnt = s.rxcnt ∧ t.timer = s.timer

/-- Whatever the machine transmits is the read frame `55 02 00 00 D0 00 AA`: the frame is built once per read and cannot
change before its last transmission (20_memory.md R57, 41_frame_encoder.md R94). -/
def Obligations.OnlyReadFrameIsTransmitted : Prop :=
  ∀ (s t : State) (bytes : List Byte), s.Inv → step s = .next t →
    t.outputs = .transmit bytes :: s.outputs → bytes = [0x55#8, 0x02#8, 0x00#8, 0x00#8, 0xD0#8, 0x00#8, 0xAA#8]

/-- A failed first `Transmit` ends the read at once (44_poll_fsm.md R117, R127): one `Transmit` was posted and no
`Receive`. -/
def Obligations.TransmitFailureEndsReadWithoutReceive : Prop :=
  ∀ (s : State) (sel : BufSel) (rest : List Input), s.busy = false →
    s.inputs = .host (.wreg .cmd (encode (.rdt sel))) :: .transmitErr :: rest →
    ∃ t, Sys2Proof.core.run 2 s = .next t ∧
      t.pstate = .transportError ∧ t.errCode = .badResponse ∧ t.errCause = .txFail ∧ t.attempt = 0 ∧
      t.busy = false ∧ t.done = true ∧ t.reading = s.reading ∧ t.inputs = rest ∧
      t.outputs = .transmit readFrame :: s.outputs

/-- Retry exhaustion (44_poll_fsm.md R127): if four responses arrive and none carries the marker, in either mode, the read
makes exactly four `Transmit`/`Receive` cycles, each with a full settle wait, and ends `Exhausted` with `BadResponse`,
`NoConfirm`; `READING` and `VALID` stay. -/
def Obligations.ReadExhaustsAfterFourCycles : Prop :=
  ∀ (s : State) (sel : BufSel) (count : Nat) (responses : List (List Byte)) (rest : List Input),
    s.busy = false → responses.length = 4 →
    (∀ r ∈ responses, r.length ≤ 280 ∧ r[1]? ≠ some 0x22#8) →
    s.inputs = .host (.wreg .cmd (encode (.rdt sel))) :: (cyclesInputs s.settle.toNat count responses ++ rest) →
    ∃ t, Sys2Proof.core.run (1 + 4 * (s.settle.toNat + 4)) s = .next t ∧
      t.pstate = .exhausted ∧ t.attempt = 4 ∧ t.errCode = .badResponse ∧ t.errCause = .noConfirm ∧
      t.busy = false ∧ t.done = true ∧ t.reading = s.reading ∧ t.valid = s.valid ∧ t.timer = 0 ∧
      t.inputs = rest ∧ t.outputs = cyclesOutputs 4 ++ s.outputs ∧
      ∀ i, i < 280 → t.readByte .rxbuf i = heldByte responses i

/-- Early confirmation (44_poll_fsm.md R127): in the reference mode, if the `j`-th response, `j` from 1 to 4, is the first
that carries the marker, the read makes exactly `j` cycles and ends `Confirmed` with the reading at the fixed offset 11
of `RXBUF`, bytes of a longer earlier response included where the last was short (R172). -/
def Obligations.ReadConfirmsAtFirstMarkedResponse : Prop :=
  ∀ (s : State) (sel : BufSel) (count : Nat) (before : List (List Byte)) (good : List Byte) (rest : List Input),
    s.busy = false → s.cfg.getLsbD 0 = false → before.length < 4 →
    (∀ r ∈ before, r.length ≤ 280 ∧ r[1]? ≠ some 0x22#8) → good.length ≤ 280 → good[1]? = some 0x22#8 →
    s.inputs = .host (.wreg .cmd (encode (.rdt sel))) ::
      (cyclesInputs s.settle.toNat count (before ++ [good]) ++ rest) →
    ∃ t, Sys2Proof.core.run (1 + (before.length + 1) * (s.settle.toNat + 4)) s = .next t ∧
      t.pstate = .confirmed ∧ t.attempt.toNat = before.length + 1 ∧ t.errCode = .none ∧ t.errCause = .none ∧
      t.busy = false ∧ t.done = true ∧ t.timer = 0 ∧ t.rxcnt.toNat = good.length ∧
      t.reading = wireWord (s.cfg.getLsbD 1)
        (heldByte (before ++ [good]) 11) (heldByte (before ++ [good]) 12)
        (heldByte (before ++ [good]) 13) (heldByte (before ++ [good]) 14) ∧
      t.inputs = rest ∧ t.outputs = cyclesOutputs (before.length + 1) ++ s.outputs

/-- An answer of the transport that no outstanding request waits for changes nothing, whatever the machine is doing:
idle, in the settle wait, in `Retrying`, or waiting for the answer to the other kind of request. The spec says so of
an answer that comes after a reset (70_reset_and_hazards.md R162) and that no event is latched (60_exceptions.md R147);
for the rest it is the model's reading (notes/assumptions/6.md). -/
def Obligations.UnaskedAnswersChangeNothing : Prop :=
  ∀ (s : State) (rest : List Input),
    (s.xreq ≠ .tx →
      (∀ count, s.inputs = .transmitOk count :: rest → step s = .next { s with inputs := rest }) ∧
      (s.inputs = .transmitErr :: rest → step s = .next { s with inputs := rest })) ∧
    (s.xreq ≠ .rx →
      (∀ bytes, s.inputs = .receiveOk bytes :: rest → step s = .next { s with inputs := rest }) ∧
      (s.inputs = .receiveErr :: rest → step s = .next { s with inputs := rest }))
end

