-- ==== Sys2Proof/Laws/State.lean ====
section
/-! SUPPORT. What each named update of the state does to each field, one lemma per field, so that no proof unfolds an
update. -/

namespace Sys2Proof
namespace Machine


/-! ### `accept`: 45_host_port.md R135 -/

@[simp] theorem State.accept_cmd (s : State) (w : Byte) : (s.accept w).cmd = w := rfl
@[simp] theorem State.accept_arg0 (s : State) (w : Byte) : (s.accept w).arg0 = s.arg0 := rfl
@[simp] theorem State.accept_arg1 (s : State) (w : Byte) : (s.accept w).arg1 = s.arg1 := rfl
@[simp] theorem State.accept_busy (s : State) (w : Byte) : (s.accept w).busy = true := rfl
@[simp] theorem State.accept_done (s : State) (w : Byte) : (s.accept w).done = false := rfl
@[simp] theorem State.accept_valid (s : State) (w : Byte) : (s.accept w).valid = s.valid := rfl
@[simp] theorem State.accept_errCode (s : State) (w : Byte) : (s.accept w).errCode = .none := rfl
@[simp] theorem State.accept_errCause (s : State) (w : Byte) : (s.accept w).errCause = .none := rfl
@[simp] theorem State.accept_eng (s : State) (w : Byte) : (s.accept w).eng = s.eng := rfl
@[simp] theorem State.accept_flen (s : State) (w : Byte) : (s.accept w).flen = s.flen := rfl
@[simp] theorem State.accept_reading (s : State) (w : Byte) : (s.accept w).reading = s.reading := rfl
@[simp] theorem State.accept_pstate (s : State) (w : Byte) : (s.accept w).pstate = s.pstate := rfl
@[simp] theorem State.accept_attempt (s : State) (w : Byte) : (s.accept w).attempt = s.attempt := rfl
@[simp] theorem State.accept_diagCalc (s : State) (w : Byte) : (s.accept w).diagCalc = s.diagCalc := rfl
@[simp] theorem State.accept_diagRecv (s : State) (w : Byte) : (s.accept w).diagRecv = s.diagRecv := rfl
@[simp] theorem State.accept_cfg (s : State) (w : Byte) : (s.accept w).cfg = s.cfg := rfl
@[simp] theorem State.accept_settle (s : State) (w : Byte) : (s.accept w).settle = s.settle := rfl
@[simp] theorem State.accept_timer (s : State) (w : Byte) : (s.accept w).timer = s.timer := rfl
@[simp] theorem State.accept_rxcnt (s : State) (w : Byte) : (s.accept w).rxcnt = s.rxcnt := rfl
@[simp] theorem State.accept_pbuf (s : State) (w : Byte) : (s.accept w).pbuf = s.pbuf := rfl
@[simp] theorem State.accept_txbuf (s : State) (w : Byte) : (s.accept w).txbuf = s.txbuf := rfl
@[simp] theorem State.accept_rxbuf (s : State) (w : Byte) : (s.accept w).rxbuf = s.rxbuf := rfl
@[simp] theorem State.accept_xreq (s : State) (w : Byte) : (s.accept w).xreq = s.xreq := rfl
@[simp] theorem State.accept_epoch (s : State) (w : Byte) : (s.accept w).epoch = s.epoch := rfl
@[simp] theorem State.accept_inputs (s : State) (w : Byte) : (s.accept w).inputs = s.inputs := rfl
@[simp] theorem State.accept_outputs (s : State) (w : Byte) : (s.accept w).outputs = s.outputs := rfl

/-! ### `complete`: R135 -/

@[simp] theorem State.complete_cmd (s : State) : (s.complete).cmd = s.cmd := rfl
@[simp] theorem State.complete_arg0 (s : State) : (s.complete).arg0 = s.arg0 := rfl
@[simp] theorem State.complete_arg1 (s : State) : (s.complete).arg1 = s.arg1 := rfl
@[simp] theorem State.complete_busy (s : State) : (s.complete).busy = false := rfl
@[simp] theorem State.complete_done (s : State) : (s.complete).done = true := rfl
@[simp] theorem State.complete_valid (s : State) : (s.complete).valid = s.valid := rfl
@[simp] theorem State.complete_errCode (s : State) : (s.complete).errCode = s.errCode := rfl
@[simp] theorem State.complete_errCause (s : State) : (s.complete).errCause = s.errCause := rfl
@[simp] theorem State.complete_eng (s : State) : (s.complete).eng = s.eng := rfl
@[simp] theorem State.complete_flen (s : State) : (s.complete).flen = s.flen := rfl
@[simp] theorem State.complete_reading (s : State) : (s.complete).reading = s.reading := rfl
@[simp] theorem State.complete_pstate (s : State) : (s.complete).pstate = s.pstate := rfl
@[simp] theorem State.complete_attempt (s : State) : (s.complete).attempt = s.attempt := rfl
@[simp] theorem State.complete_diagCalc (s : State) : (s.complete).diagCalc = s.diagCalc := rfl
@[simp] theorem State.complete_diagRecv (s : State) : (s.complete).diagRecv = s.diagRecv := rfl
@[simp] theorem State.complete_cfg (s : State) : (s.complete).cfg = s.cfg := rfl
@[simp] theorem State.complete_settle (s : State) : (s.complete).settle = s.settle := rfl
@[simp] theorem State.complete_timer (s : State) : (s.complete).timer = s.timer := rfl
@[simp] theorem State.complete_rxcnt (s : State) : (s.complete).rxcnt = s.rxcnt := rfl
@[simp] theorem State.complete_pbuf (s : State) : (s.complete).pbuf = s.pbuf := rfl
@[simp] theorem State.complete_txbuf (s : State) : (s.complete).txbuf = s.txbuf := rfl
@[simp] theorem State.complete_rxbuf (s : State) : (s.complete).rxbuf = s.rxbuf := rfl
@[simp] theorem State.complete_xreq (s : State) : (s.complete).xreq = s.xreq := rfl
@[simp] theorem State.complete_epoch (s : State) : (s.complete).epoch = s.epoch := rfl
@[simp] theorem State.complete_inputs (s : State) : (s.complete).inputs = s.inputs := rfl
@[simp] theorem State.complete_outputs (s : State) : (s.complete).outputs = s.outputs := rfl

/-! ### `raise`: 60_exceptions.md R149 -/

@[simp] theorem State.raise_cmd (s : State) (e : ErrCode) (c : ErrCause) : (s.raise e c).cmd = s.cmd := rfl
@[simp] theorem State.raise_arg0 (s : State) (e : ErrCode) (c : ErrCause) : (s.raise e c).arg0 = s.arg0 := rfl
@[simp] theorem State.raise_arg1 (s : State) (e : ErrCode) (c : ErrCause) : (s.raise e c).arg1 = s.arg1 := rfl
@[simp] theorem State.raise_busy (s : State) (e : ErrCode) (c : ErrCause) : (s.raise e c).busy = false := rfl
@[simp] theorem State.raise_done (s : State) (e : ErrCode) (c : ErrCause) : (s.raise e c).done = true := rfl
@[simp] theorem State.raise_valid (s : State) (e : ErrCode) (c : ErrCause) : (s.raise e c).valid = s.valid := rfl
@[simp] theorem State.raise_errCode (s : State) (e : ErrCode) (c : ErrCause) : (s.raise e c).errCode = e := rfl
@[simp] theorem State.raise_errCause (s : State) (e : ErrCode) (c : ErrCause) :
    (s.raise e c).errCause = if e = .badResponse then c else .none := rfl
@[simp] theorem State.raise_eng (s : State) (e : ErrCode) (c : ErrCause) : (s.raise e c).eng = s.eng := rfl
@[simp] theorem State.raise_flen (s : State) (e : ErrCode) (c : ErrCause) : (s.raise e c).flen = s.flen := rfl
@[simp] theorem State.raise_reading (s : State) (e : ErrCode) (c : ErrCause) : (s.raise e c).reading = s.reading := rfl
@[simp] theorem State.raise_pstate (s : State) (e : ErrCode) (c : ErrCause) : (s.raise e c).pstate = s.pstate := rfl
@[simp] theorem State.raise_attempt (s : State) (e : ErrCode) (c : ErrCause) : (s.raise e c).attempt = s.attempt := rfl
@[simp] theorem State.raise_diagCalc (s : State) (e : ErrCode) (c : ErrCause) : (s.raise e c).diagCalc = s.diagCalc := rfl
@[simp] theorem State.raise_diagRecv (s : State) (e : ErrCode) (c : ErrCause) : (s.raise e c).diagRecv = s.diagRecv := rfl
@[simp] theorem State.raise_cfg (s : State) (e : ErrCode) (c : ErrCause) : (s.raise e c).cfg = s.cfg := rfl
@[simp] theorem State.raise_settle (s : State) (e : ErrCode) (c : ErrCause) : (s.raise e c).settle = s.settle := rfl
@[simp] theorem State.raise_timer (s : State) (e : ErrCode) (c : ErrCause) : (s.raise e c).timer = s.timer := rfl
@[simp] theorem State.raise_rxcnt (s : State) (e : ErrCode) (c : ErrCause) : (s.raise e c).rxcnt = s.rxcnt := rfl
@[simp] theorem State.raise_pbuf (s : State) (e : ErrCode) (c : ErrCause) : (s.raise e c).pbuf = s.pbuf := rfl
@[simp] theorem State.raise_txbuf (s : State) (e : ErrCode) (c : ErrCause) : (s.raise e c).txbuf = s.txbuf := rfl
@[simp] theorem State.raise_rxbuf (s : State) (e : ErrCode) (c : ErrCause) : (s.raise e c).rxbuf = s.rxbuf := rfl
@[simp] theorem State.raise_xreq (s : State) (e : ErrCode) (c : ErrCause) : (s.raise e c).xreq = .none := rfl
@[simp] theorem State.raise_epoch (s : State) (e : ErrCode) (c : ErrCause) : (s.raise e c).epoch = s.epoch := rfl
@[simp] theorem State.raise_inputs (s : State) (e : ErrCode) (c : ErrCause) : (s.raise e c).inputs = s.inputs := rfl
@[simp] theorem State.raise_outputs (s : State) (e : ErrCode) (c : ErrCause) : (s.raise e c).outputs = s.outputs := rfl

/-! ### `emit`: a port output -/

@[simp] theorem State.emit_cmd (s : State) (o : Output) : (s.emit o).cmd = s.cmd := rfl
@[simp] theorem State.emit_arg0 (s : State) (o : Output) : (s.emit o).arg0 = s.arg0 := rfl
@[simp] theorem State.emit_arg1 (s : State) (o : Output) : (s.emit o).arg1 = s.arg1 := rfl
@[simp] theorem State.emit_busy (s : State) (o : Output) : (s.emit o).busy = s.busy := rfl
@[simp] theorem State.emit_done (s : State) (o : Output) : (s.emit o).done = s.done := rfl
@[simp] theorem State.emit_valid (s : State) (o : Output) : (s.emit o).valid = s.valid := rfl
@[simp] theorem State.emit_errCode (s : State) (o : Output) : (s.emit o).errCode = s.errCode := rfl
@[simp] theorem State.emit_errCause (s : State) (o : Output) : (s.emit o).errCause = s.errCause := rfl
@[simp] theorem State.emit_eng (s : State) (o : Output) : (s.emit o).eng = s.eng := rfl
@[simp] theorem State.emit_flen (s : State) (o : Output) : (s.emit o).flen = s.flen := rfl
@[simp] theorem State.emit_reading (s : State) (o : Output) : (s.emit o).reading = s.reading := rfl
@[simp] theorem State.emit_pstate (s : State) (o : Output) : (s.emit o).pstate = s.pstate := rfl
@[simp] theorem State.emit_attempt (s : State) (o : Output) : (s.emit o).attempt = s.attempt := rfl
@[simp] theorem State.emit_diagCalc (s : State) (o : Output) : (s.emit o).diagCalc = s.diagCalc := rfl
@[simp] theorem State.emit_diagRecv (s : State) (o : Output) : (s.emit o).diagRecv = s.diagRecv := rfl
@[simp] theorem State.emit_cfg (s : State) (o : Output) : (s.emit o).cfg = s.cfg := rfl
@[simp] theorem State.emit_settle (s : State) (o : Output) : (s.emit o).settle = s.settle := rfl
@[simp] theorem State.emit_timer (s : State) (o : Output) : (s.emit o).timer = s.timer := rfl
@[simp] theorem State.emit_rxcnt (s : State) (o : Output) : (s.emit o).rxcnt = s.rxcnt := rfl
@[simp] theorem State.emit_pbuf (s : State) (o : Output) : (s.emit o).pbuf = s.pbuf := rfl
@[simp] theorem State.emit_txbuf (s : State) (o : Output) : (s.emit o).txbuf = s.txbuf := rfl
@[simp] theorem State.emit_rxbuf (s : State) (o : Output) : (s.emit o).rxbuf = s.rxbuf := rfl
@[simp] theorem State.emit_xreq (s : State) (o : Output) : (s.emit o).xreq = s.xreq := rfl
@[simp] theorem State.emit_epoch (s : State) (o : Output) : (s.emit o).epoch = s.epoch := rfl
@[simp] theorem State.emit_inputs (s : State) (o : Output) : (s.emit o).inputs = s.inputs := rfl
@[simp] theorem State.emit_outputs (s : State) (o : Output) : (s.emit o).outputs = o :: s.outputs := rfl

/-! ### `takeEvent`: the next event leaves the list -/

@[simp] theorem State.takeEvent_cmd (s : State) : (s.takeEvent).cmd = s.cmd := rfl
@[simp] theorem State.takeEvent_arg0 (s : State) : (s.takeEvent).arg0 = s.arg0 := rfl
@[simp] theorem State.takeEvent_arg1 (s : State) : (s.takeEvent).arg1 = s.arg1 := rfl
@[simp] theorem State.takeEvent_busy (s : State) : (s.takeEvent).busy = s.busy := rfl
@[simp] theorem State.takeEvent_done (s : State) : (s.takeEvent).done = s.done := rfl
@[simp] theorem State.takeEvent_valid (s : State) : (s.takeEvent).valid = s.valid := rfl
@[simp] theorem State.takeEvent_errCode (s : State) : (s.takeEvent).errCode = s.errCode := rfl
@[simp] theorem State.takeEvent_errCause (s : State) : (s.takeEvent).errCause = s.errCause := rfl
@[simp] theorem State.takeEvent_eng (s : State) : (s.takeEvent).eng = s.eng := rfl
@[simp] theorem State.takeEvent_flen (s : State) : (s.takeEvent).flen = s.flen := rfl
@[simp] theorem State.takeEvent_reading (s : State) : (s.takeEvent).reading = s.reading := rfl
@[simp] theorem State.takeEvent_pstate (s : State) : (s.takeEvent).pstate = s.pstate := rfl
@[simp] theorem State.takeEvent_attempt (s : State) : (s.takeEvent).attempt = s.attempt := rfl
@[simp] theorem State.takeEvent_diagCalc (s : State) : (s.takeEvent).diagCalc = s.diagCalc := rfl
@[simp] theorem State.takeEvent_diagRecv (s : State) : (s.takeEvent).diagRecv = s.diagRecv := rfl
@[simp] theorem State.takeEvent_cfg (s : State) : (s.takeEvent).cfg = s.cfg := rfl
@[simp] theorem State.takeEvent_settle (s : State) : (s.takeEvent).settle = s.settle := rfl
@[simp] theorem State.takeEvent_timer (s : State) : (s.takeEvent).timer = s.timer := rfl
@[simp] theorem State.takeEvent_rxcnt (s : State) : (s.takeEvent).rxcnt = s.rxcnt := rfl
@[simp] theorem State.takeEvent_pbuf (s : State) : (s.takeEvent).pbuf = s.pbuf := rfl
@[simp] theorem State.takeEvent_txbuf (s : State) : (s.takeEvent).txbuf = s.txbuf := rfl
@[simp] theorem State.takeEvent_rxbuf (s : State) : (s.takeEvent).rxbuf = s.rxbuf := rfl
@[simp] theorem State.takeEvent_xreq (s : State) : (s.takeEvent).xreq = s.xreq := rfl
@[simp] theorem State.takeEvent_epoch (s : State) : (s.takeEvent).epoch = s.epoch := rfl
@[simp] theorem State.takeEvent_inputs (s : State) : (s.takeEvent).inputs = s.inputs.tail := rfl
@[simp] theorem State.takeEvent_outputs (s : State) : (s.takeEvent).outputs = s.outputs := rfl

/-! ### `crcRun`: 40_crc.md R84 -/

@[simp] theorem State.crcRun_cmd (s : State) (b : BufId) (first last : Nat) : (s.crcRun b first last).cmd = s.cmd := rfl
@[simp] theorem State.crcRun_arg0 (s : State) (b : BufId) (first last : Nat) : (s.crcRun b first last).arg0 = s.arg0 := rfl
@[simp] theorem State.crcRun_arg1 (s : State) (b : BufId) (first last : Nat) : (s.crcRun b first last).arg1 = s.arg1 := rfl
@[simp] theorem State.crcRun_busy (s : State) (b : BufId) (first last : Nat) : (s.crcRun b first last).busy = s.busy := rfl
@[simp] theorem State.crcRun_done (s : State) (b : BufId) (first last : Nat) : (s.crcRun b first last).done = s.done := rfl
@[simp] theorem State.crcRun_valid (s : State) (b : BufId) (first last : Nat) : (s.crcRun b first last).valid = s.valid := rfl
@[simp] theorem State.crcRun_errCode (s : State) (b : BufId) (first last : Nat) : (s.crcRun b first last).errCode = s.errCode := rfl
@[simp] theorem State.crcRun_errCause (s : State) (b : BufId) (first last : Nat) : (s.crcRun b first last).errCause = s.errCause := rfl
@[simp] theorem State.crcRun_eng (s : State) (b : BufId) (first last : Nat) : (s.crcRun b first last).eng = Engine.run (s.readByte b) first last := rfl
@[simp] theorem State.crcRun_flen (s : State) (b : BufId) (first last : Nat) : (s.crcRun b first last).flen = s.flen := rfl
@[simp] theorem State.crcRun_reading (s : State) (b : BufId) (first last : Nat) : (s.crcRun b first last).reading = s.reading := rfl
@[simp] theorem State.crcRun_pstate (s : State) (b : BufId) (first last : Nat) : (s.crcRun b first last).pstate = s.pstate := rfl
@[simp] theorem State.crcRun_attempt (s : State) (b : BufId) (first last : Nat) : (s.crcRun b first last).attempt = s.attempt := rfl
@[simp] theorem State.crcRun_diagCalc (s : State) (b : BufId) (first last : Nat) : (s.crcRun b first last).diagCalc = s.diagCalc := rfl
@[simp] theorem State.crcRun_diagRecv (s : State) (b : BufId) (first last : Nat) : (s.crcRun b first last).diagRecv = s.diagRecv := rfl
@[simp] theorem State.crcRun_cfg (s : State) (b : BufId) (first last : Nat) : (s.crcRun b first last).cfg = s.cfg := rfl
@[simp] theorem State.crcRun_settle (s : State) (b : BufId) (first last : Nat) : (s.crcRun b first last).settle = s.settle := rfl
@[simp] theorem State.crcRun_timer (s : State) (b : BufId) (first last : Nat) : (s.crcRun b first last).timer = s.timer := rfl
@[simp] theorem State.crcRun_rxcnt (s : State) (b : BufId) (first last : Nat) : (s.crcRun b first last).rxcnt = s.rxcnt := rfl
@[simp] theorem State.crcRun_pbuf (s : State) (b : BufId) (first last : Nat) : (s.crcRun b first last).pbuf = s.pbuf := rfl
@[simp] theorem State.crcRun_txbuf (s : State) (b : BufId) (first last : Nat) : (s.crcRun b first last).txbuf = s.txbuf := rfl
@[simp] theorem State.crcRun_rxbuf (s : State) (b : BufId) (first last : Nat) : (s.crcRun b first last).rxbuf = s.rxbuf := rfl
@[simp] theorem State.crcRun_xreq (s : State) (b : BufId) (first last : Nat) : (s.crcRun b first last).xreq = s.xreq := rfl
@[simp] theorem State.crcRun_epoch (s : State) (b : BufId) (first last : Nat) : (s.crcRun b first last).epoch = s.epoch := rfl
@[simp] theorem State.crcRun_inputs (s : State) (b : BufId) (first last : Nat) : (s.crcRun b first last).inputs = s.inputs := rfl
@[simp] theorem State.crcRun_outputs (s : State) (b : BufId) (first last : Nat) : (s.crcRun b first last).outputs = s.outputs := rfl

/-! ### `validate`: 42_frame_validator.md R100 -/

@[simp] theorem State.validate_cmd (s : State) (b : BufId) (ti : Nat) : (s.validate b ti).cmd = s.cmd := rfl
@[simp] theorem State.validate_arg0 (s : State) (b : BufId) (ti : Nat) : (s.validate b ti).arg0 = s.arg0 := rfl
@[simp] theorem State.validate_arg1 (s : State) (b : BufId) (ti : Nat) : (s.validate b ti).arg1 = s.arg1 := rfl
@[simp] theorem State.validate_busy (s : State) (b : BufId) (ti : Nat) : (s.validate b ti).busy = s.busy := rfl
@[simp] theorem State.validate_done (s : State) (b : BufId) (ti : Nat) : (s.validate b ti).done = s.done := rfl
@[simp] theorem State.validate_valid (s : State) (b : BufId) (ti : Nat) : (s.validate b ti).valid = decide ((Engine.run (s.readByte b) 1 (ti - 2)).crc = s.storedChecksum b ti) := rfl
@[simp] theorem State.validate_errCode (s : State) (b : BufId) (ti : Nat) : (s.validate b ti).errCode = s.errCode := rfl
@[simp] theorem State.validate_errCause (s : State) (b : BufId) (ti : Nat) : (s.validate b ti).errCause = s.errCause := rfl
@[simp] theorem State.validate_eng (s : State) (b : BufId) (ti : Nat) : (s.validate b ti).eng = Engine.run (s.readByte b) 1 (ti - 2) := rfl
@[simp] theorem State.validate_flen (s : State) (b : BufId) (ti : Nat) : (s.validate b ti).flen = s.flen := rfl
@[simp] theorem State.validate_reading (s : State) (b : BufId) (ti : Nat) : (s.validate b ti).reading = s.reading := rfl
@[simp] theorem State.validate_pstate (s : State) (b : BufId) (ti : Nat) : (s.validate b ti).pstate = s.pstate := rfl
@[simp] theorem State.validate_attempt (s : State) (b : BufId) (ti : Nat) : (s.validate b ti).attempt = s.attempt := rfl
@[simp] theorem State.validate_diagCalc (s : State) (b : BufId) (ti : Nat) : (s.validate b ti).diagCalc = (Engine.run (s.readByte b) 1 (ti - 2)).crc := rfl
@[simp] theorem State.validate_diagRecv (s : State) (b : BufId) (ti : Nat) : (s.validate b ti).diagRecv = s.storedChecksum b ti := rfl
@[simp] theorem State.validate_cfg (s : State) (b : BufId) (ti : Nat) : (s.validate b ti).cfg = s.cfg := rfl
@[simp] theorem State.validate_settle (s : State) (b : BufId) (ti : Nat) : (s.validate b ti).settle = s.settle := rfl
@[simp] theorem State.validate_timer (s : State) (b : BufId) (ti : Nat) : (s.validate b ti).timer = s.timer := rfl
@[simp] theorem State.validate_rxcnt (s : State) (b : BufId) (ti : Nat) : (s.validate b ti).rxcnt = s.rxcnt := rfl
@[simp] theorem State.validate_pbuf (s : State) (b : BufId) (ti : Nat) : (s.validate b ti).pbuf = s.pbuf := rfl
@[simp] theorem State.validate_txbuf (s : State) (b : BufId) (ti : Nat) : (s.validate b ti).txbuf = s.txbuf := rfl
@[simp] theorem State.validate_rxbuf (s : State) (b : BufId) (ti : Nat) : (s.validate b ti).rxbuf = s.rxbuf := rfl
@[simp] theorem State.validate_xreq (s : State) (b : BufId) (ti : Nat) : (s.validate b ti).xreq = s.xreq := rfl
@[simp] theorem State.validate_epoch (s : State) (b : BufId) (ti : Nat) : (s.validate b ti).epoch = s.epoch := rfl
@[simp] theorem State.validate_inputs (s : State) (b : BufId) (ti : Nat) : (s.validate b ti).inputs = s.inputs := rfl
@[simp] theorem State.validate_outputs (s : State) (b : BufId) (ti : Nat) : (s.validate b ti).outputs = s.outputs := rfl

/-! ### `setMem`, and the three ways a buffer is written through it: only that buffer changes -/

@[simp] theorem State.setMem_cmd (s : State) (b : BufId) (m : Memory) : (s.setMem b m).cmd = s.cmd := by cases b <;> rfl
@[simp] theorem State.setMem_arg0 (s : State) (b : BufId) (m : Memory) : (s.setMem b m).arg0 = s.arg0 := by cases b <;> rfl
@[simp] theorem State.setMem_arg1 (s : State) (b : BufId) (m : Memory) : (s.setMem b m).arg1 = s.arg1 := by cases b <;> rfl
@[simp] theorem State.setMem_busy (s : State) (b : BufId) (m : Memory) : (s.setMem b m).busy = s.busy := by cases b <;> rfl
@[simp] theorem State.setMem_done (s : State) (b : BufId) (m : Memory) : (s.setMem b m).done = s.done := by cases b <;> rfl
@[simp] theorem State.setMem_valid (s : State) (b : BufId) (m : Memory) : (s.setMem b m).valid = s.valid := by cases b <;> rfl
@[simp] theorem State.setMem_errCode (s : State) (b : BufId) (m : Memory) : (s.setMem b m).errCode = s.errCode := by cases b <;> rfl
@[simp] theorem State.setMem_errCause (s : State) (b : BufId) (m : Memory) : (s.setMem b m).errCause = s.errCause := by cases b <;> rfl
@[simp] theorem State.setMem_eng (s : State) (b : BufId) (m : Memory) : (s.setMem b m).eng = s.eng := by cases b <;> rfl
@[simp] theorem State.setMem_flen (s : State) (b : BufId) (m : Memory) : (s.setMem b m).flen = s.flen := by cases b <;> rfl
@[simp] theorem State.setMem_reading (s : State) (b : BufId) (m : Memory) : (s.setMem b m).reading = s.reading := by cases b <;> rfl
@[simp] theorem State.setMem_pstate (s : State) (b : BufId) (m : Memory) : (s.setMem b m).pstate = s.pstate := by cases b <;> rfl
@[simp] theorem State.setMem_attempt (s : State) (b : BufId) (m : Memory) : (s.setMem b m).attempt = s.attempt := by cases b <;> rfl
@[simp] theorem State.setMem_diagCalc (s : State) (b : BufId) (m : Memory) : (s.setMem b m).diagCalc = s.diagCalc := by cases b <;> rfl
@[simp] theorem State.setMem_diagRecv (s : State) (b : BufId) (m : Memory) : (s.setMem b m).diagRecv = s.diagRecv := by cases b <;> rfl
@[simp] theorem State.setMem_cfg (s : State) (b : BufId) (m : Memory) : (s.setMem b m).cfg = s.cfg := by cases b <;> rfl
@[simp] theorem State.setMem_settle (s : State) (b : BufId) (m : Memory) : (s.setMem b m).settle = s.settle := by cases b <;> rfl
@[simp] theorem State.setMem_timer (s : State) (b : BufId) (m : Memory) : (s.setMem b m).timer = s.timer := by cases b <;> rfl
@[simp] theorem State.setMem_rxcnt (s : State) (b : BufId) (m : Memory) : (s.setMem b m).rxcnt = s.rxcnt := by cases b <;> rfl
@[simp] theorem State.setMem_xreq (s : State) (b : BufId) (m : Memory) : (s.setMem b m).xreq = s.xreq := by cases b <;> rfl
@[simp] theorem State.setMem_epoch (s : State) (b : BufId) (m : Memory) : (s.setMem b m).epoch = s.epoch := by cases b <;> rfl
@[simp] theorem State.setMem_inputs (s : State) (b : BufId) (m : Memory) : (s.setMem b m).inputs = s.inputs := by cases b <;> rfl
@[simp] theorem State.setMem_outputs (s : State) (b : BufId) (m : Memory) : (s.setMem b m).outputs = s.outputs := by cases b <;> rfl

@[simp] theorem State.setMem_mem_self (s : State) (b : BufId) (m : Memory) : (s.setMem b m).mem b = m := by cases b <;> rfl

theorem State.setMem_mem_other (s : State) (b c : BufId) (m : Memory) (h : c ≠ b) : (s.setMem b m).mem c = s.mem c := by
  cases b <;> cases c <;> first | rfl | exact absurd rfl h

@[simp] theorem State.writeByte_cmd (s : State) (b : BufId) (i : Nat) (v : Byte) : (s.writeByte b i v).cmd = s.cmd := by cases b <;> rfl
@[simp] theorem State.writeByte_arg0 (s : State) (b : BufId) (i : Nat) (v : Byte) : (s.writeByte b i v).arg0 = s.arg0 := by cases b <;> rfl
@[simp] theorem State.writeByte_arg1 (s : State) (b : BufId) (i : Nat) (v : Byte) : (s.writeByte b i v).arg1 = s.arg1 := by cases b <;> rfl
@[simp] theorem State.writeByte_busy (s : State) (b : BufId) (i : Nat) (v : Byte) : (s.writeByte b i v).busy = s.busy := by cases b <;> rfl
@[simp] theorem State.writeByte_done (s : State) (b : BufId) (i : Nat) (v : Byte) : (s.writeByte b i v).done = s.done := by cases b <;> rfl
@[simp] theorem State.writeByte_valid (s : State) (b : BufId) (i : Nat) (v : Byte) : (s.writeByte b i v).valid = s.valid := by cases b <;> rfl
@[simp] theorem State.writeByte_errCode (s : State) (b : BufId) (i : Nat) (v : Byte) : (s.writeByte b i v).errCode = s.errCode := by cases b <;> rfl
@[simp] theorem State.writeByte_errCause (s : State) (b : BufId) (i : Nat) (v : Byte) : (s.writeByte b i v).errCause = s.errCause := by cases b <;> rfl
@[simp] theorem State.writeByte_eng (s : State) (b : BufId) (i : Nat) (v : Byte) : (s.writeByte b i v).eng = s.eng := by cases b <;> rfl
@[simp] theorem State.writeByte_flen (s : State) (b : BufId) (i : Nat) (v : Byte) : (s.writeByte b i v).flen = s.flen := by cases b <;> rfl
@[simp] theorem State.writeByte_reading (s : State) (b : BufId) (i : Nat) (v : Byte) : (s.writeByte b i v).reading = s.reading := by cases b <;> rfl
@[simp] theorem State.writeByte_pstate (s : State) (b : BufId) (i : Nat) (v : Byte) : (s.writeByte b i v).pstate = s.pstate := by cases b <;> rfl
@[simp] theorem State.writeByte_attempt (s : State) (b : BufId) (i : Nat) (v : Byte) : (s.writeByte b i v).attempt = s.attempt := by cases b <;> rfl
@[simp] theorem State.writeByte_diagCalc (s : State) (b : BufId) (i : Nat) (v : Byte) : (s.writeByte b i v).diagCalc = s.diagCalc := by cases b <;> rfl
@[simp] theorem State.writeByte_diagRecv (s : State) (b : BufId) (i : Nat) (v : Byte) : (s.writeByte b i v).diagRecv = s.diagRecv := by cases b <;> rfl
@[simp] theorem State.writeByte_cfg (s : State) (b : BufId) (i : Nat) (v : Byte) : (s.writeByte b i v).cfg = s.cfg := by cases b <;> rfl
@[simp] theorem State.writeByte_settle (s : State) (b : BufId) (i : Nat) (v : Byte) : (s.writeByte b i v).settle = s.settle := by cases b <;> rfl
@[simp] theorem State.writeByte_timer (s : State) (b : BufId) (i : Nat) (v : Byte) : (s.writeByte b i v).timer = s.timer := by cases b <;> rfl
@[simp] theorem State.writeByte_rxcnt (s : State) (b : BufId) (i : Nat) (v : Byte) : (s.writeByte b i v).rxcnt = s.rxcnt := by cases b <;> rfl
@[simp] theorem State.writeByte_xreq (s : State) (b : BufId) (i : Nat) (v : Byte) : (s.writeByte b i v).xreq = s.xreq := by cases b <;> rfl
@[simp] theorem State.writeByte_epoch (s : State) (b : BufId) (i : Nat) (v : Byte) : (s.writeByte b i v).epoch = s.epoch := by cases b <;> rfl
@[simp] theorem State.writeByte_inputs (s : State) (b : BufId) (i : Nat) (v : Byte) : (s.writeByte b i v).inputs = s.inputs := by cases b <;> rfl
@[simp] theorem State.writeByte_outputs (s : State) (b : BufId) (i : Nat) (v : Byte) : (s.writeByte b i v).outputs = s.outputs := by cases b <;> rfl

@[simp] theorem State.writeBytes_cmd (s : State) (b : BufId) (i : Nat) (vs : List Byte) : (s.writeBytes b i vs).cmd = s.cmd := by cases b <;> rfl
@[simp] theorem State.writeBytes_arg0 (s : State) (b : BufId) (i : Nat) (vs : List Byte) : (s.writeBytes b i vs).arg0 = s.arg0 := by cases b <;> rfl
@[simp] theorem State.writeBytes_arg1 (s : State) (b : BufId) (i : Nat) (vs : List Byte) : (s.writeBytes b i vs).arg1 = s.arg1 := by cases b <;> rfl
@[simp] theorem State.writeBytes_busy (s : State) (b : BufId) (i : Nat) (vs : List Byte) : (s.writeBytes b i vs).busy = s.busy := by cases b <;> rfl
@[simp] theorem State.writeBytes_done (s : State) (b : BufId) (i : Nat) (vs : List Byte) : (s.writeBytes b i vs).done = s.done := by cases b <;> rfl
@[simp] theorem State.writeBytes_valid (s : State) (b : BufId) (i : Nat) (vs : List Byte) : (s.writeBytes b i vs).valid = s.valid := by cases b <;> rfl
@[simp] theorem State.writeBytes_errCode (s : State) (b : BufId) (i : Nat) (vs : List Byte) : (s.writeBytes b i vs).errCode = s.errCode := by cases b <;> rfl
@[simp] theorem State.writeBytes_errCause (s : State) (b : BufId) (i : Nat) (vs : List Byte) : (s.writeBytes b i vs).errCause = s.errCause := by cases b <;> rfl
@[simp] theorem State.writeBytes_eng (s : State) (b : BufId) (i : Nat) (vs : List Byte) : (s.writeBytes b i vs).eng = s.eng := by cases b <;> rfl
@[simp] theorem State.writeBytes_flen (s : State) (b : BufId) (i : Nat) (vs : List Byte) : (s.writeBytes b i vs).flen = s.flen := by cases b <;> rfl
@[simp] theorem State.writeBytes_reading (s : State) (b : BufId) (i : Nat) (vs : List Byte) : (s.writeBytes b i vs).reading = s.reading := by cases b <;> rfl
@[simp] theorem State.writeBytes_pstate (s : State) (b : BufId) (i : Nat) (vs : List Byte) : (s.writeBytes b i vs).pstate = s.pstate := by cases b <;> rfl
@[simp] theorem State.writeBytes_attempt (s : State) (b : BufId) (i : Nat) (vs : List Byte) : (s.writeBytes b i vs).attempt = s.attempt := by cases b <;> rfl
@[simp] theorem State.writeBytes_diagCalc (s : State) (b : BufId) (i : Nat) (vs : List Byte) : (s.writeBytes b i vs).diagCalc = s.diagCalc := by cases b <;> rfl
@[simp] theorem State.writeBytes_diagRecv (s : State) (b : BufId) (i : Nat) (vs : List Byte) : (s.writeBytes b i vs).diagRecv = s.diagRecv := by cases b <;> rfl
@[simp] theorem State.writeBytes_cfg (s : State) (b : BufId) (i : Nat) (vs : List Byte) : (s.writeBytes b i vs).cfg = s.cfg := by cases b <;> rfl
@[simp] theorem State.writeBytes_settle (s : State) (b : BufId) (i : Nat) (vs : List Byte) : (s.writeBytes b i vs).settle = s.settle := by cases b <;> rfl
@[simp] theorem State.writeBytes_timer (s : State) (b : BufId) (i : Nat) (vs : List Byte) : (s.writeBytes b i vs).timer = s.timer := by cases b <;> rfl
@[simp] theorem State.writeBytes_rxcnt (s : State) (b : BufId) (i : Nat) (vs : List Byte) : (s.writeBytes b i vs).rxcnt = s.rxcnt := by cases b <;> rfl
@[simp] theorem State.writeBytes_xreq (s : State) (b : BufId) (i : Nat) (vs : List Byte) : (s.writeBytes b i vs).xreq = s.xreq := by cases b <;> rfl
@[simp] theorem State.writeBytes_epoch (s : State) (b : BufId) (i : Nat) (vs : List Byte) : (s.writeBytes b i vs).epoch = s.epoch := by cases b <;> rfl
@[simp] theorem State.writeBytes_inputs (s : State) (b : BufId) (i : Nat) (vs : List Byte) : (s.writeBytes b i vs).inputs = s.inputs := by cases b <;> rfl
@[simp] theorem State.writeBytes_outputs (s : State) (b : BufId) (i : Nat) (vs : List Byte) : (s.writeBytes b i vs).outputs = s.outputs := by cases b <;> rfl

@[simp] theorem State.clearBuffer_cmd (s : State) (b : BufId) : (s.clearBuffer b).cmd = s.cmd := by cases b <;> rfl
@[simp] theorem State.clearBuffer_arg0 (s : State) (b : BufId) : (s.clearBuffer b).arg0 = s.arg0 := by cases b <;> rfl
@[simp] theorem State.clearBuffer_arg1 (s : State) (b : BufId) : (s.clearBuffer b).arg1 = s.arg1 := by cases b <;> rfl
@[simp] theorem State.clearBuffer_busy (s : State) (b : BufId) : (s.clearBuffer b).busy = s.busy := by cases b <;> rfl
@[simp] theorem State.clearBuffer_done (s : State) (b : BufId) : (s.clearBuffer b).done = s.done := by cases b <;> rfl
@[simp] theorem State.clearBuffer_valid (s : State) (b : BufId) : (s.clearBuffer b).valid = s.valid := by cases b <;> rfl
@[simp] theorem State.clearBuffer_errCode (s : State) (b : BufId) : (s.clearBuffer b).errCode = s.errCode := by cases b <;> rfl
@[simp] theorem State.clearBuffer_errCause (s : State) (b : BufId) : (s.clearBuffer b).errCause = s.errCause := by cases b <;> rfl
@[simp] theorem State.clearBuffer_eng (s : State) (b : BufId) : (s.clearBuffer b).eng = s.eng := by cases b <;> rfl
@[simp] theorem State.clearBuffer_flen (s : State) (b : BufId) : (s.clearBuffer b).flen = s.flen := by cases b <;> rfl
@[simp] theorem State.clearBuffer_reading (s : State) (b : BufId) : (s.clearBuffer b).reading = s.reading := by cases b <;> rfl
@[simp] theorem State.clearBuffer_pstate (s : State) (b : BufId) : (s.clearBuffer b).pstate = s.pstate := by cases b <;> rfl
@[simp] theorem State.clearBuffer_attempt (s : State) (b : BufId) : (s.clearBuffer b).attempt = s.attempt := by cases b <;> rfl
@[simp] theorem State.clearBuffer_diagCalc (s : State) (b : BufId) : (s.clearBuffer b).diagCalc = s.diagCalc := by cases b <;> rfl
@[simp] theorem State.clearBuffer_diagRecv (s : State) (b : BufId) : (s.clearBuffer b).diagRecv = s.diagRecv := by cases b <;> rfl
@[simp] theorem State.clearBuffer_cfg (s : State) (b : BufId) : (s.clearBuffer b).cfg = s.cfg := by cases b <;> rfl
@[simp] theorem State.clearBuffer_settle (s : State) (b : BufId) : (s.clearBuffer b).settle = s.settle := by cases b <;> rfl
@[simp] theorem State.clearBuffer_timer (s : State) (b : BufId) : (s.clearBuffer b).timer = s.timer := by cases b <;> rfl
@[simp] theorem State.clearBuffer_rxcnt (s : State) (b : BufId) : (s.clearBuffer b).rxcnt = s.rxcnt := by cases b <;> rfl
@[simp] theorem State.clearBuffer_xreq (s : State) (b : BufId) : (s.clearBuffer b).xreq = s.xreq := by cases b <;> rfl
@[simp] theorem State.clearBuffer_epoch (s : State) (b : BufId) : (s.clearBuffer b).epoch = s.epoch := by cases b <;> rfl
@[simp] theorem State.clearBuffer_inputs (s : State) (b : BufId) : (s.clearBuffer b).inputs = s.inputs := by cases b <;> rfl
@[simp] theorem State.clearBuffer_outputs (s : State) (b : BufId) : (s.clearBuffer b).outputs = s.outputs := by cases b <;> rfl

end Machine
end Sys2Proof
end

