-- ==== Sys2Proof/Laws/Memory.lean ====
section
/-! SUPPORT. The laws of one buffer's memory: a read after writes, the canonical form is kept by every operation, and
memories in canonical form that read alike are equal. -/

namespace Sys2Proof
namespace Machine

@[simp] theorem Memory.find?_nil (i : Nat) : Memory.find? [] i = none := rfl

theorem Memory.find?_cons (k : Nat) (v : Byte) (m : Memory) (i : Nat) :
    Memory.find? ((k, v) :: m) i = if k = i then some v else Memory.find? m i := rfl

/-- Read after write: the written index gives the byte, every other index what it gave before. -/
theorem Memory.find?_insert (a : Nat) (v : Byte) (m : Memory) (i : Nat) :
    (Memory.insert a v m).find? i = if a = i then some v else m.find? i := by
  induction m with
  | nil => simp [Memory.insert, Memory.find?_cons]
  | cons c m ih =>
    obtain ⟨k, w⟩ := c
    unfold Memory.insert
    split
    · rfl
    · split
      · subst a
        by_cases h : k = i <;> simp [Memory.find?_cons, h]
      · rename_i hne
        by_cases h : k = i
        · have : a ≠ i := fun ha => hne (ha.trans h.symm)
          simp [Memory.find?_cons, h, this]
        · simp [Memory.find?_cons, h, ih]

/-- Read after a run of writes: inside the run its byte, elsewhere what was there. -/
theorem Memory.find?_insertList (a : Nat) (vs : List Byte) (m : Memory) (i : Nat) :
    (Memory.insertList a vs m).find? i =
      if a ≤ i ∧ i < a + vs.length then vs[i - a]? else m.find? i := by
  induction vs generalizing a m with
  | nil =>
    have h : ¬ (a ≤ i ∧ i < a) := by omega
    simp [Memory.insertList, h]
  | cons v vs ih =>
    simp only [Memory.insertList, ih, Memory.find?_insert, List.length_cons]
    by_cases h0 : a = i
    · subst a; simp
    · by_cases h1 : a + 1 ≤ i ∧ i < a + 1 + vs.length
      · have h2 : a ≤ i ∧ i < a + (vs.length + 1) := by omega
        have h3 : i - a = (i - (a + 1)) + 1 := by omega
        simp [h1, h2, h3]
      · have h2 : ¬ (a ≤ i ∧ i < a + (vs.length + 1)) := by omega
        rw [if_neg h1, if_neg h2, if_neg h0]

theorem Memory.find?_zeros (n i : Nat) : (Memory.zeros n).find? i = if i < n then some 0#8 else none := by
  have key : ∀ l : List Nat,
      Memory.find? (l.map fun k => (k, 0#8)) i = if i ∈ l then some 0#8 else none := by
    intro l
    induction l with
    | nil => rfl
    | cons k l ih =>
      by_cases h : k = i
      · simp [Memory.find?_cons, h]
      · simp [Memory.find?_cons, h, ih, Ne.symm h]
  simp [Memory.zeros, key]

theorem Memory.risingFrom_mono {m : Memory} {lo hi : Nat} (h : Memory.risingFrom hi m = true) (hl : lo ≤ hi) :
    Memory.risingFrom lo m = true := by
  cases m with
  | nil => rfl
  | cons c m =>
    simp only [Memory.risingFrom, Bool.and_eq_true, decide_eq_true_eq] at h ⊢
    exact ⟨hl.trans h.1, h.2⟩

theorem Memory.risingFrom_insert {m : Memory} {lo a : Nat} (v : Byte) (h : Memory.risingFrom lo m = true)
    (ha : lo ≤ a) : Memory.risingFrom lo (Memory.insert a v m) = true := by
  induction m generalizing lo with
  | nil => simp [Memory.insert, Memory.risingFrom, ha]
  | cons c m ih =>
    obtain ⟨k, w⟩ := c
    simp only [Memory.risingFrom, Bool.and_eq_true, decide_eq_true_eq] at h
    unfold Memory.insert
    split
    · simp only [Memory.risingFrom, Bool.and_eq_true, decide_eq_true_eq]
      exact ⟨ha, by omega, h.2⟩
    · split
      · subst a
        simp only [Memory.risingFrom, Bool.and_eq_true, decide_eq_true_eq]
        exact h
      · simp only [Memory.risingFrom, Bool.and_eq_true, decide_eq_true_eq]
        exact ⟨h.1, ih h.2 (by omega)⟩

theorem Memory.all_insert {p : Host.Cell → Bool} {m : Memory} {a : Nat} {v : Byte} (h : m.all p = true)
    (ha : p (a, v) = true) : (Memory.insert a v m).all p = true := by
  induction m with
  | nil => simp [Memory.insert, ha]
  | cons c m ih =>
    obtain ⟨k, w⟩ := c
    simp only [List.all_cons, Bool.and_eq_true] at h
    unfold Memory.insert
    split
    · simp only [List.all_cons, Bool.and_eq_true]; exact ⟨ha, h⟩
    · split
      · simp only [List.all_cons, Bool.and_eq_true]; exact ⟨ha, h.2⟩
      · simp only [List.all_cons, Bool.and_eq_true]; exact ⟨h.1, ih h.2⟩

/-- A write inside the buffer keeps the canonical form. -/
theorem Memory.wf_insert {cap : Nat} {m : Memory} {a : Nat} (v : Byte) (h : Memory.wf cap m = true) (ha : a < cap) :
    Memory.wf cap (Memory.insert a v m) = true := by
  simp only [Memory.wf, Bool.and_eq_true] at h ⊢
  exact ⟨Memory.risingFrom_insert v h.1 (Nat.zero_le a), Memory.all_insert h.2 (by simpa using ha)⟩

/-- A run of writes inside the buffer keeps the canonical form. -/
theorem Memory.wf_insertList {cap : Nat} {m : Memory} {a : Nat} (vs : List Byte) (h : Memory.wf cap m = true)
    (ha : a + vs.length ≤ cap) : Memory.wf cap (Memory.insertList a vs m) = true := by
  induction vs generalizing a m with
  | nil => exact h
  | cons v vs ih =>
    simp only [List.length_cons] at ha
    exact ih (Memory.wf_insert v h (by omega)) (by omega)

theorem Memory.wf_nil (cap : Nat) : Memory.wf cap [] = true := rfl

theorem Memory.risingFrom_range' (lo n : Nat) :
    Memory.risingFrom lo ((List.range' lo n).map fun k => (k, 0#8)) = true := by
  induction n generalizing lo with
  | zero => rfl
  | succ n ih =>
    simp only [List.range'_succ, List.map_cons, Memory.risingFrom, Bool.and_eq_true, decide_eq_true_eq]
    exact ⟨Nat.le_refl lo, ih (lo + 1)⟩

/-- A cleared buffer is in canonical form. -/
theorem Memory.wf_zeros (cap : Nat) : Memory.wf cap (Memory.zeros cap) = true := by
  simp only [Memory.wf, Bool.and_eq_true, Memory.zeros, List.range_eq_range']
  exact ⟨Memory.risingFrom_range' 0 cap, by simp [List.all_map]⟩

theorem Memory.find?_none_of_risingFrom {m : Memory} {lo i : Nat} (h : Memory.risingFrom lo m = true) (hi : i < lo) :
    m.find? i = none := by
  induction m generalizing lo with
  | nil => rfl
  | cons c m ih =>
    obtain ⟨k, w⟩ := c
    simp only [Memory.risingFrom, Bool.and_eq_true, decide_eq_true_eq] at h
    have hk : k ≠ i := by omega
    simp only [Memory.find?_cons, hk, if_false]
    exact ih h.2 (by omega)

theorem Memory.eq_of_risingFrom {m n : Memory} {lo : Nat} (hm : Memory.risingFrom lo m = true)
    (hn : Memory.risingFrom lo n = true) (h : ∀ i, m.find? i = n.find? i) : m = n := by
  induction m generalizing n lo with
  | nil =>
    cases n with
    | nil => rfl
    | cons c n => obtain ⟨k, w⟩ := c; simpa [Memory.find?_cons] using h k
  | cons c m ih =>
    obtain ⟨k, w⟩ := c
    cases n with
    | nil => simpa [Memory.find?_cons] using h k
    | cons d n =>
      obtain ⟨l, x⟩ := d
      simp only [Memory.risingFrom, Bool.and_eq_true, decide_eq_true_eq] at hm hn
      have hkl : k = l := by
        rcases Nat.lt_trichotomy k l with hlt | heq | hgt
        · have := h k
          rw [Memory.find?_cons, if_pos rfl, Memory.find?_cons, if_neg (by omega),
            Memory.find?_none_of_risingFrom hn.2 (by omega)] at this
          cases this
        · exact heq
        · have := h l
          rw [Memory.find?_cons, if_neg (by omega), Memory.find?_cons, if_pos rfl,
            Memory.find?_none_of_risingFrom hm.2 (by omega)] at this
          cases this
      subst l
      have hw : w = x := by simpa [Memory.find?_cons] using h k
      subst x
      refine congrArg _ (ih hm.2 hn.2 fun i => ?_)
      by_cases hi : k = i
      · subst i
        rw [Memory.find?_none_of_risingFrom hm.2 (Nat.lt_succ_self k),
          Memory.find?_none_of_risingFrom hn.2 (Nat.lt_succ_self k)]
      · simpa [Memory.find?_cons, hi] using h i

/-- Two memories in canonical form that read alike are the same list. -/
theorem Memory.eq_of_wf {cap : Nat} {m n : Memory} (hm : Memory.wf cap m = true) (hn : Memory.wf cap n = true)
    (h : ∀ i, m.find? i = n.find? i) : m = n := by
  simp only [Memory.wf, Bool.and_eq_true] at hm hn
  exact Memory.eq_of_risingFrom hm.1 hn.1 h

theorem Memory.find?_none_of_ge {cap : Nat} {m : Memory} {i : Nat} (h : Memory.wf cap m = true) (hi : cap ≤ i) :
    m.find? i = none := by
  simp only [Memory.wf, Bool.and_eq_true] at h
  have key : ∀ l : Memory, l.all (fun c => decide (c.1 < cap)) = true → l.find? i = none := by
    intro l
    induction l with
    | nil => intro _; rfl
    | cons c l ih =>
      intro hl
      simp only [List.all_cons, Bool.and_eq_true, decide_eq_true_eq] at hl
      have : c.1 ≠ i := by omega
      exact (Memory.find?_cons c.1 c.2 l i).trans (by simp [this, ih hl.2])
  exact key m h.2

/-- The clear of R111 is the loop the spec writes: 0 at every index of the buffer, one after another. -/
theorem Memory.zeros_eq_insertList {cap : Nat} {m : Memory} (h : Memory.wf cap m = true) :
    Memory.insertList 0 (List.replicate cap 0#8) m = Memory.zeros cap := by
  refine Memory.eq_of_wf (cap := cap) (Memory.wf_insertList _ h (by simp)) (Memory.wf_zeros cap) fun i => ?_
  rw [Memory.find?_insertList, Memory.find?_zeros]
  by_cases hi : i < cap
  · simp [hi]
  · have h0 : m.find? i = none := Memory.find?_none_of_ge h (Nat.le_of_not_lt hi)
    simp [hi, h0]

end Machine
end Sys2Proof
end

