-- ==== Sys2Proof/Laws/Ops.lean ====
section
/-! SUPPORT. What the shared operations over buffers do, said once: a read after each kind of write, a read in a state
that shares a memory and the epoch, and the canonical form of the three memories. -/

namespace Sys2Proof
namespace Machine

/-- A read looks at one buffer's memory and the epoch only. -/
theorem State.readByte_congr {s t : State} {b : BufId} (hm : t.mem b = s.mem b) (he : t.epoch = s.epoch) (i : Nat) :
    t.readByte b i = s.readByte b i := by
  simp only [State.readByte, hm, he]

theorem State.readBytes_congr {s t : State} {b : BufId} (hm : t.mem b = s.mem b) (he : t.epoch = s.epoch)
    (first count : Nat) : t.readBytes b first count = s.readBytes b first count := by
  have : t.readByte b = s.readByte b := funext fun i => State.readByte_congr hm he i
  simp only [State.readBytes, this]

@[simp] theorem State.length_readBytes (s : State) (b : BufId) (first count : Nat) :
    (s.readBytes b first count).length = count := by simp [State.readBytes]

theorem State.readBytes_succ (s : State) (b : BufId) (first count : Nat) :
    s.readBytes b first (count + 1) = s.readByte b first :: s.readBytes b (first + 1) count := by
  simp [State.readBytes, List.range'_succ]

theorem State.readBytes_add (s : State) (b : BufId) (first m n : Nat) :
    s.readBytes b first (m + n) = s.readBytes b first m ++ s.readBytes b (first + m) n := by
  induction m generalizing first with
  | zero => simp [State.readBytes]
  | succ m ih =>
    rw [Nat.add_right_comm, State.readBytes_succ, State.readBytes_succ, ih, List.cons_append]
    congr 3
    omega

theorem State.getElem?_readBytes (s : State) (b : BufId) (first count i : Nat) :
    (s.readBytes b first count)[i]? = if i < count then some (s.readByte b (first + i)) else none := by
  simp only [State.readBytes, List.getElem?_map]
  by_cases h : i < count
  · simp [h]
  · simp [h]

/-- A run of reads gives a list exactly when each read gives its element. -/
theorem State.readBytes_eq {s : State} {b : BufId} {first : Nat} {vs : List Byte}
    (h : ∀ i, i < vs.length → vs[i]? = some (s.readByte b (first + i))) : s.readBytes b first vs.length = vs := by
  apply List.ext_getElem?
  intro i
  rw [State.getElem?_readBytes]
  by_cases hi : i < vs.length
  · simp only [hi, if_true]; exact (h i hi).symm
  · simp [hi]

/-- Read after one write, in any buffer and at any index (45_host_port.md R133, R134). -/
theorem State.readByte_writeByte (s : State) (b c : BufId) (i j : Nat) (v : Byte) :
    (s.writeByte b i v).readByte c j = if c = b ∧ i = j then v else s.readByte c j := by
  by_cases hc : c = b
  · subst c
    simp only [State.readByte, State.writeByte, State.setMem_mem_self, State.setMem_epoch, Memory.find?_insert]
    by_cases hj : i = j <;> simp [hj]
  · rw [if_neg fun h => hc h.1]
    exact State.readByte_congr (State.setMem_mem_other s b c _ hc) (by simp) j

/-- Read after a run of writes: inside the run its byte, elsewhere and in the other buffers what was there. -/
theorem State.readByte_writeBytes (s : State) (b c : BufId) (a j : Nat) (vs : List Byte) :
    (s.writeBytes b a vs).readByte c j =
      if c = b ∧ a ≤ j ∧ j < a + vs.length then vs.getD (j - a) 0 else s.readByte c j := by
  by_cases hc : c = b
  · subst c
    simp only [State.readByte, State.writeBytes, State.setMem_mem_self, State.setMem_epoch, Memory.find?_insertList]
    by_cases hj : a ≤ j ∧ j < a + vs.length
    · have h1 : j - a < vs.length := by omega
      simp [hj, h1]
    · simp only [hj, if_false, and_false]
  · rw [if_neg fun h => hc h.1]
    exact State.readByte_congr (State.setMem_mem_other s b c _ hc) (by simp) j

/-- Read after a clear (44_poll_fsm.md R111). -/
theorem State.readByte_clearBuffer (s : State) (b : BufId) (i : Nat) (h : i < b.cap) :
    (s.clearBuffer b).readByte b i = 0 := by
  simp [State.readByte, State.clearBuffer, Memory.find?_zeros, h]

theorem State.readByte_clearBuffer_other (s : State) (b c : BufId) (i : Nat) (h : c ≠ b) :
    (s.clearBuffer b).readByte c i = s.readByte c i :=
  State.readByte_congr (State.setMem_mem_other s b c _ h) (by simp) i

/-- A register read of the host changes nothing but what was sent (45_host_port.md R131). -/
theorem hostTransaction_rreg_idle (s : State) (r : HostReg) (h : s.busy = false) :
    hostTransaction (.rreg r) s = .next (s.emit (.register r (s.register r))) := by
  simp [hostTransaction, h]

/-- What a start does: the body of the decoded operation, or `IllegalOp`, after the prologue (R135). -/
theorem startOperation_ok {w : Byte} {i : Instr} (h : decode w = .ok i) (s : State) :
    startOperation w s = exec i (s.accept w) := by simp only [startOperation, h]

theorem startOperation_error {w : Byte} {r : DecodeReject} (h : decode w = .error r) (s : State) :
    startOperation w s = .next ((s.accept w).raise .illegalOp .none) := by simp only [startOperation, h]

/-- What a step does: the first event happens, or with none left the sequencer may move. -/
theorem step_nil {s : State} (h : s.inputs = []) : step s = .next s.sequencerStep := by simp only [step, h]

theorem step_cons {s : State} {e : Input} {rest : List Input} (h : s.inputs = e :: rest) :
    step s = event e { s with inputs := rest } := by simp only [step, h, State.takeEvent, List.tail_cons]

/-- Every step that goes on is a turn of the sequencer or one event. -/
theorem step_cases {s t : State} (h : step s = .next t) :
    (s.inputs = [] ∧ t = s.sequencerStep) ∨
    ∃ e rest, s.inputs = e :: rest ∧ event e { s with inputs := rest } = .next t := by
  cases hi : s.inputs with
  | nil => rw [step_nil hi] at h; cases h; exact .inl ⟨rfl, rfl⟩
  | cons e rest => rw [step_cons hi] at h; exact .inr ⟨e, rest, rfl, h⟩

end Machine
end Sys2Proof
end

