-- ==== Sys2Proof/Laws/Engine.lean ====
section
/-! SUPPORT. Small laws of the Checksum Engine: the checksum of a list by its first byte and by its parts, and how a
run of micro-operations is taken apart. -/

namespace Sys2Proof
namespace Machine

@[simp] theorem crcBits_zero (c : Half) : crcBits 0 c = c := rfl

theorem crcBits_succ (n : Nat) (c : Half) : crcBits (n + 1) c = crcBits n (crcBit c) := rfl

@[simp] theorem crcFrom_nil (c : Half) : crcFrom c [] = c := rfl

theorem crcFrom_cons (c : Half) (d : Byte) (ds : List Byte) : crcFrom c (d :: ds) = crcFrom (crcByte c d) ds := rfl

theorem crcFrom_append (c : Half) (xs ys : List Byte) : crcFrom c (xs ++ ys) = crcFrom (crcFrom c xs) ys := by
  simp [crcFrom]

@[simp] theorem Engine.iterate_zero (rd : Nat → Byte) (g : Engine) : Engine.iterate rd 0 g = g := rfl

theorem Engine.iterate_succ (rd : Nat → Byte) (n : Nat) (g : Engine) :
    Engine.iterate rd (n + 1) g = Engine.iterate rd n (g.micro rd) := rfl

theorem Engine.iterate_add (rd : Nat → Byte) (m n : Nat) (g : Engine) :
    Engine.iterate rd (m + n) g = Engine.iterate rd n (Engine.iterate rd m g) := by
  induction m generalizing g with
  | zero => simp
  | succ m ih => rw [Nat.add_right_comm, Engine.iterate_succ, ih, ← Engine.iterate_succ]

theorem Engine.micro_off {rd : Nat → Byte} {g : Engine} (h : g.phase = .off) : g.micro rd = g := by
  simp only [Engine.micro, h]

theorem Engine.micro_absorb {rd : Nat → Byte} {g : Engine} (h : g.phase = .absorb) :
    g.micro rd = g.absorb (rd g.idx.toNat) := by simp only [Engine.micro, h]

theorem Engine.micro_shift {rd : Nat → Byte} {g : Engine} (h : g.phase = .shift) : g.micro rd = g.shift := by
  simp only [Engine.micro, h]

/-- The engine at rest stays at rest. -/
theorem Engine.iterate_off {rd : Nat → Byte} {g : Engine} (n : Nat) (h : g.phase = .off) :
    Engine.iterate rd n g = g := by
  induction n with
  | zero => rfl
  | succ n ih => rw [Engine.iterate_succ, Engine.micro_off h, ih]

/-- A run reads its buffer only. -/
theorem Engine.run_congr {rd rd' : Nat → Byte} (h : ∀ i, rd i = rd' i) (first last : Nat) :
    Engine.run rd first last = Engine.run rd' first last := by rw [funext h]

end Machine
end Sys2Proof
end

