-- ==== Sys2Proof/Laws/PerInstr.lean ====
section
/-! SUPPORT. One statement per operation: its command word matches its row of spec/opcode_table.json, and its select
can be read back from the word. -/

namespace Sys2Proof
namespace Laws

/-- The column "match" of spec/opcode_table.json (30_encoding.md R71). -/
def tableMatch : Instr → Byte
  | .crc _ => 0x01#8
  | .enc _ => 0x02#8
  | .val _ => 0x03#8
  | .dec _ => 0x04#8
  | .rdt _ => 0x05#8

/-- An operation's word has the fixed bits of its row under the mask `0xE7`, and its `BUF` field is its select. -/
def EncodedByTableRow.Statement (i : Instr) : Prop :=
  encode i &&& 0xE7#8 = tableMatch i ∧ BufSel.ofBits (bufField (encode i)) = i.buf

theorem EncodedByTableRow.crc (b : BufSel) : EncodedByTableRow.Statement (.crc b) := by cases b <;> exact ⟨rfl, rfl⟩

theorem EncodedByTableRow.enc (b : BufSel) : EncodedByTableRow.Statement (.enc b) := by cases b <;> exact ⟨rfl, rfl⟩

theorem EncodedByTableRow.val (b : BufSel) : EncodedByTableRow.Statement (.val b) := by cases b <;> exact ⟨rfl, rfl⟩

theorem EncodedByTableRow.dec (b : BufSel) : EncodedByTableRow.Statement (.dec b) := by cases b <;> exact ⟨rfl, rfl⟩

theorem EncodedByTableRow.rdt (b : BufSel) : EncodedByTableRow.Statement (.rdt b) := by cases b <;> exact ⟨rfl, rfl⟩

end Laws
end Sys2Proof
end

