-- ==== Sys2Proof/Laws/Poll.lean ====
section
/-! SUPPORT. What the operands, the gate, the events and a run of steps can do, each said once as an inversion lemma, for
the proofs that go through a whole step. -/

namespace Sys2Proof
namespace Machine

/-- An accepted CRC has a range inside its buffer (40_crc.md R85). -/
theorem crcOperands_ok {sel : BufSel} {s : State} {b : BufId} {first last : Nat}
    (h : crcOperands sel s = .ok (b, first, last)) :
    bufferOf sel = some b ∧ first = s.arg0.toNat ∧ last = s.arg1.toNat ∧ first ≤ last ∧ last < b.cap := by
  unfold crcOperands at h
  cases hb : bufferOf sel with
  | none => rw [hb] at h; cases h
  | some c =>
    rw [hb] at h; dsimp only at h
    split at h
    · cases h
    · split at h <;> cases h
      exact ⟨rfl, rfl, rfl, by omega, by omega⟩

theorem crcOperands_error {sel : BufSel} {s : State} {e : ErrCode} (h : crcOperands sel s = .error e) :
    e = .badOperand ∨ e = .emptyRange := by
  unfold crcOperands at h
  cases hb : bufferOf sel with
  | none => rw [hb] at h; cases h; exact .inl rfl
  | some b =>
    rw [hb] at h; dsimp only at h
    split at h
    · cases h; exact .inl rfl
    · split at h <;> cases h
      exact .inr rfl

/-- An accepted ENC has a frame that fits (41_frame_encoder.md R91). -/
theorem encOperand_ok {s : State} {n : Nat} (h : encOperand s = .ok n) : n = s.arg0.toNat ∧ n + 7 ≤ 255 := by
  unfold encOperand Config.txCap at h
  split at h <;> cases h
  exact ⟨rfl, by omega⟩

theorem encOperand_error {s : State} {e : ErrCode} (h : encOperand s = .error e) : e = .frameTooLarge := by
  unfold encOperand at h
  split at h <;> cases h
  rfl

/-- An accepted VAL has its trailer index inside its buffer (42_frame_validator.md R101). -/
theorem valOperands_ok {sel : BufSel} {s : State} {b : BufId} {ti : Nat} (h : valOperands sel s = .ok (b, ti)) :
    bufferOf sel = some b ∧ ti = s.arg0.toNat ∧ 3 ≤ ti ∧ ti < b.cap := by
  unfold valOperands at h
  cases hb : bufferOf sel with
  | none => rw [hb] at h; cases h
  | some c =>
    rw [hb] at h; dsimp only at h
    split at h <;> cases h
    exact ⟨rfl, rfl, by omega, by omega⟩

theorem valOperands_error {sel : BufSel} {s : State} {e : ErrCode} (h : valOperands sel s = .error e) :
    e = .badOperand := by
  unfold valOperands at h
  cases hb : bufferOf sel with
  | none => rw [hb] at h; cases h; rfl
  | some b =>
    rw [hb] at h; dsimp only at h
    split at h <;> cases h
    rfl

/-- An accepted DEC has its four bytes inside its buffer (43_float_decoder.md R106). -/
theorem decOperands_ok {sel : BufSel} {s : State} {b : BufId} {o : Nat} (h : decOperands sel s = .ok (b, o)) :
    bufferOf sel = some b ∧ o = s.arg0.toNat ∧ o + 3 < b.cap := by
  unfold decOperands at h
  cases hb : bufferOf sel with
  | none => rw [hb] at h; cases h
  | some c =>
    rw [hb] at h; dsimp only at h
    split at h <;> cases h
    exact ⟨rfl, rfl, by omega⟩

theorem decOperands_error {sel : BufSel} {s : State} {e : ErrCode} (h : decOperands sel s = .error e) :
    e = .badOperand := by
  unfold decOperands at h
  cases hb : bufferOf sel with
  | none => rw [hb] at h; cases h; rfl
  | some b =>
    rw [hb] at h; dsimp only at h
    split at h <;> cases h
    rfl

/-- The gate after a `Receive` whose marker does not match (44_poll_fsm.md R114, R124). -/
theorem State.gate_unmarked (s : State) (h : s.readByte .rxbuf 1 ≠ Config.confirm) :
    s.gate false =
      if s.attempt.toNat < 4 then { s with pstate := .retrying }
      else State.raise { s with pstate := .exhausted } .badResponse .noConfirm := by
  unfold State.gate State.confirmed
  rw [if_pos h]
  simp only [Bool.false_eq_true, if_false, Config.maxAttempts]
  split
  · rfl
  · unfold State.enterExhausted
    rw [if_neg h]

/-- The gate on a matching marker in the reference mode (44_poll_fsm.md R113, R123). -/
theorem State.gate_marked (s : State) (atStart : Bool) (h : s.readByte .rxbuf 1 = Config.confirm)
    (hs : s.strict = false) : s.gate atStart = s.enterConfirmed := by
  unfold State.gate State.confirmed
  rw [if_neg fun hn => hn h]
  simp only [hs, if_true]

/-- The gate on a matching marker in strict mode: the checksum decides (44_poll_fsm.md R113, R128). -/
theorem State.gate_strict (s : State) (h : s.readByte .rxbuf 1 = Config.confirm) (hs : s.strict = true) :
    s.gate false =
      if s.strictCheck.valid = true then s.strictCheck.enterConfirmed
      else if s.strictCheck.attempt.toNat < 4 then { s.strictCheck with pstate := .retrying }
      else s.strictCheck.enterExhausted := by
  unfold State.gate State.confirmed
  rw [if_neg fun hn => hn h]
  simp only [hs, Bool.true_eq_false, if_false, Bool.false_eq_true, Config.maxAttempts]

/-- Every turn of the sequencer: nothing, `Receive` posted, or the frame sent again. -/
theorem State.sequencerStep_cases (s : State) :
    s.sequencerStep = s ∨
    (s.busy = true ∧ s.pstate = .awaitingResponse ∧ s.xreq = .none ∧ s.timer = 0 ∧ s.sequencerStep = s.postReceive) ∨
    (s.busy = true ∧ s.pstate = .retrying ∧ s.sequencerStep = s.enterSending) := by
  unfold State.sequencerStep
  split
  · rename_i h; exact .inr (.inl ⟨h.1, h.2.1, h.2.2.1, h.2.2.2, rfl⟩)
  · split
    · rename_i h; exact .inr (.inr ⟨h.1, h.2, rfl⟩)
    · exact .inl rfl

/-- Every host transaction that goes on: a read of something, a byte written, a register written, an operation, or an
illegal word. -/
theorem hostTransaction_cases {x : HostTxn} {s t : State} (h : hostTransaction x s = .next t) :
    (∃ o, t = s.emit o ∧ ∀ bytes, o ≠ .transmit bytes) ∨
    (∃ b i v, s.busy = false ∧ i < b.cap ∧ x = .wbuf b i v ∧ t = s.writeByte b i v) ∨
    (∃ r v, s.busy = false ∧ x = .wreg r v ∧ t = s.writeRegister r v) ∨
    (∃ w i, s.busy = false ∧ x = .wreg .cmd w ∧ decode w = .ok i ∧ exec i (s.accept w) = .next t) ∨
    (∃ w, s.busy = false ∧ x = .wreg .cmd w ∧ t = (s.accept w).raise .illegalOp .none) := by
  cases x with
  | rreg r =>
    simp only [hostTransaction] at h
    split at h <;> cases h
    exact .inl ⟨_, rfl, by simp⟩
  | rbuf b i =>
    simp only [hostTransaction] at h
    split at h
    · cases h
    · split at h <;> cases h
      exact .inl ⟨_, rfl, by simp⟩
  | wbuf b i v =>
    simp only [hostTransaction] at h
    split at h
    · cases h
    rename_i hb
    split at h <;> cases h
    rename_i hi
    exact .inr (.inl ⟨b, i, v, by simpa using hb, by omega, rfl, rfl⟩)
  | wreg r v =>
    simp only [hostTransaction] at h
    split at h
    · cases h
    rename_i hb
    have hb : s.busy = false := by simpa using hb
    cases r with
    | cmd =>
      simp only [writeRegister] at h
      cases hd : decode v with
      | ok i => rw [startOperation_ok hd] at h; exact .inr (.inr (.inr (.inl ⟨v, i, hb, rfl, hd, h⟩)))
      | error r => rw [startOperation_error hd] at h; cases h; exact .inr (.inr (.inr (.inr ⟨v, hb, rfl, rfl⟩)))
    | _ => cases h; exact .inr (.inr (.inl ⟨_, _, hb, rfl, rfl⟩))

/-- Every event that goes on: a host transaction, a turn of the sequencer, nothing, or the one transition that waits for
it (44_poll_fsm.md R126). -/
theorem event_cases {e : Input} {s t : State} (h : event e s = .next t) :
    (∃ x, e = .host x ∧ hostTransaction x s = .next t) ∨
    (e = .sequencer ∧ t = s.sequencerStep) ∨
    t = s ∨
    (e = .tick ∧ s.pstate = .awaitingResponse ∧ s.xreq = .none ∧ s.timer ≠ 0 ∧ t = { s with timer := s.timer - 1 }) ∨
    (∃ count, e = .transmitOk count ∧ s.pstate = .sending ∧ s.xreq = .tx ∧
      t = { s with xreq := .none, timer := s.settle, pstate := .awaitingResponse }) ∨
    (e = .transmitErr ∧ s.pstate = .sending ∧ s.xreq = .tx ∧
      t = State.enterTransportError { s with xreq := .none } .txFail) ∨
    (∃ bytes, e = .receiveOk bytes ∧ s.pstate = .awaitingResponse ∧ s.xreq = .rx ∧ bytes.length ≤ 280 ∧
      t = State.gate { (s.writeBytes .rxbuf 0 bytes) with
        rxcnt := BitVec.ofNat 9 bytes.length, attempt := s.attempt + 1, xreq := .none } false) ∨
    (e = .receiveErr ∧ s.pstate = .awaitingResponse ∧ s.xreq = .rx ∧
      t = State.enterTransportError { s with xreq := .none } .rxFail) ∨
    (e = .reset ∧ t = s.resetEvent) := by
  cases e with
  | host x => exact .inl ⟨x, rfl, h⟩
  | sequencer => cases h; exact .inr (.inl ⟨rfl, rfl⟩)
  | tick =>
    cases h; unfold State.tick; split
    · rename_i hc; exact .inr (.inr (.inr (.inl ⟨rfl, hc.1, hc.2.1, hc.2.2, rfl⟩)))
    · exact .inr (.inr (.inl rfl))
  | transmitOk c =>
    cases h; unfold State.transmitOk; split
    · rename_i hc; exact .inr (.inr (.inr (.inr (.inl ⟨c, rfl, hc.1, hc.2, rfl⟩))))
    · exact .inr (.inr (.inl rfl))
  | transmitErr =>
    cases h; unfold State.transmitErr; split
    · rename_i hc; exact .inr (.inr (.inr (.inr (.inr (.inl ⟨rfl, hc.1, hc.2, rfl⟩)))))
    · exact .inr (.inr (.inl rfl))
  | receiveOk b =>
    simp only [event, receiveOk] at h
    split at h
    · rename_i hc
      split at h <;> cases h
      rename_i hl
      have hl : b.length ≤ 280 := Nat.le_of_not_lt hl
      exact .inr (.inr (.inr (.inr (.inr (.inr (.inl ⟨b, rfl, hc.1, hc.2, hl, rfl⟩))))))
    · cases h; exact .inr (.inr (.inl rfl))
  | receiveErr =>
    cases h; unfold State.receiveErr; split
    · rename_i hc; exact .inr (.inr (.inr (.inr (.inr (.inr (.inr (.inl ⟨rfl, hc.1, hc.2, rfl⟩)))))))
    · exact .inr (.inr (.inl rfl))
  | reset => cases h; exact .inr (.inr (.inr (.inr (.inr (.inr (.inr (.inr ⟨rfl, rfl⟩)))))))

/-- A run whose first step goes on is the run from there. -/
theorem run_succ_of_next (M : Host.Core) (n : Nat) {s t : M.State} (h : M.step s = .next t) :
    M.run (n + 1) s = M.run n t := by simp only [Host.Core.run, h]

/-- A run is taken apart where its first part ends. -/
theorem run_add_of_next (M : Host.Core) (m n : Nat) {s t : M.State} (h : M.run m s = .next t) :
    M.run (m + n) s = M.run n t := by
  induction m generalizing s with
  | zero => simp only [Host.Core.run] at h; cases h; rw [Nat.zero_add]
  | succ m ih =>
    rw [Nat.add_right_comm]
    cases hs : M.step s with
    | next u => rw [run_succ_of_next M m hs] at h; rw [run_succ_of_next M (m + n) hs]; exact ih h
    | fault r => simp only [Host.Core.run, hs] at h; cases h
    | refused r => simp only [Host.Core.run, hs] at h; cases h

end Machine
end Sys2Proof
end

