-- ==== Sys2Proof/Tests/Slice0.lean ====
section
/-! SUPPORT. Tests of the model against values of spec/95_test_vectors.md, the smoke tests of WellFormed, and for every
obligation with hypotheses a witness that meets them. -/

namespace Sys2Proof.Tests

open Sys2Proof Sys2Proof.Machine

/-! ### Helpers -/

/-- What `f` sees in the next state, if there is one. -/
def seen {α : Type} (o : Host.Outcome State Fault Refusal) (f : State → α) : Option α :=
  match o with
  | .next s => some (f s)
  | .fault _ => none
  | .refused _ => none

/-- Is there a next state with this property? -/
def nextWith (p : State → Bool) (o : Host.Outcome State Fault Refusal) : Bool :=
  match o with
  | .next s => p s
  | .fault _ => false
  | .refused _ => false

theorem exists_next {p : State → Bool} {o : Host.Outcome State Fault Refusal} (h : nextWith p o = true) :
    ∃ t, o = .next t ∧ p t = true := by
  cases o with
  | next s => exact ⟨s, rfl, h⟩
  | fault r => cases h
  | refused r => cases h

/-- The next state, or the state itself. -/
def nextOr (s : State) : State := (seen (step s) id).getD s

/-- The reset state with bytes at the bottom of one buffer, and operands. -/
def withBytes (b : BufId) (bytes : List Byte) (a0 a1 : Half) : State :=
  { (State.reset.writeBytes b 0 bytes) with arg0 := a0, arg1 := a1 }

/-- The reset state with these events to come. -/
def withInputs (es : List Input) : State := { State.reset with inputs := es }

/-- The state in which an RDT has posted its first `Transmit`. -/
def sendingState : State := nextOr (withInputs [.host (.wreg .cmd 0x05#8)])

/-- A state of the settle wait, or with `Receive` posted, over a cleared `RXBUF`. -/
def awaiting (x : XReq) (timer : Half) (attempt : BitVec 3) (cfg : BitVec 2) (es : List Input) : State :=
  { sendingState with
    pstate := .awaitingResponse, xreq := x, timer := timer, attempt := attempt, cfg := cfg, inputs := es }

/-- `NEG`, `G2375`, `BAD`, `SHORT` of 95_test_vectors.md V17, V18. -/
def negResponse : List Byte := [0x55, 0x00, 0x00, 0x00, 0x71, 0xC0, 0xAA]
def goodResponse : List Byte :=
  [0x55, 0x22, 0x0B, 0, 0, 0, 0, 0, 0, 0, 0, 0, 0, 0xBE, 0x41, 0x22, 0x38, 0xAA]
def badResponse : List Byte :=
  [0x55, 0x22, 0x0B, 0, 0, 0, 0, 0, 0, 0, 0, 0, 0, 0xBE, 0x41, 0x23, 0x38, 0xAA]

/-- The frame of V6 and V10: `55 02 01 AB CD EE F9 AA`. -/
def frameV6 : List Byte := [0x55, 0x02, 0x01, 0xAB, 0xCD, 0xEE, 0xF9, 0xAA]

/-! ### Decoding: words written out bit by bit from 30_encoding.md R66 and R71 (vectors of V15) -/

theorem test_decode_crc : decode 0b000_01_001#8 = .ok (.crc .txbuf) := rfl
theorem test_decode_enc : decode 0b000_00_010#8 = .ok (.enc .pbuf) := rfl
theorem test_decode_val : decode 0b000_10_011#8 = .ok (.val .rxbuf) := rfl
theorem test_decode_dec : decode 0b000_00_100#8 = .ok (.dec .pbuf) := rfl
theorem test_decode_rdt : decode 0b000_11_101#8 = .ok (.rdt .reserved) := rfl
theorem test_decode_rejects_by_name :
    decode 0b000_01_110#8 = .error .reservedOp ∧ decode 0b001_00_001#8 = .error .reservedBits := ⟨rfl, rfl⟩
theorem test_expand_crc : Pseudo.expand (.crc .rxbuf 1 3) =
    [.txn (.wreg .arg0 1), .txn (.wreg .arg1 3), .txn (.wreg .cmd 0x11#8), .wait] := by decide

/-! ### WellFormed: each check refuses an ill-formed term and accepts the term at its boundary -/

theorem test_wf_rbuf : (HostTxn.rbuf .pbuf 249).wellFormed = false ∧ (HostTxn.rbuf .pbuf 248).wellFormed = true := by decide
theorem test_wf_wbuf :
    (HostTxn.wbuf .txbuf 255 0).wellFormed = false ∧ (HostTxn.wbuf .txbuf 254 0).wellFormed = true := by decide
theorem test_wf_receive :
    (Input.receiveOk (List.replicate 281 0)).wellFormed = false ∧
    (Input.receiveOk (List.replicate 280 0)).wellFormed = true := by decide +kernel
theorem test_wf_host_input : (Input.host (.rbuf .rxbuf 280)).wellFormed = false := by decide
theorem test_wf_stmt : (Stmt.txn (.wbuf .rxbuf 280 0)).wellFormed = false := by decide
theorem test_wf_fill :
    (Pseudo.fill .pbuf 248 [0xAB, 0xCD]).wellFormed = false ∧ (Pseudo.fill .pbuf 247 [0xAB, 0xCD]).wellFormed = true := by
  decide

/-! ### The operations, one step each (V6, V7, V8, V10, V11, V12, V14, V17, V18) -/

/-- V6 row 1. -/
theorem test_crc_frame_range :
    seen (exec (.crc .txbuf) (withBytes .txbuf frameV6 1 4)) (fun s => (s.eng.crc, s.errCode)) =
      some (0xF9EE, .none) := by decide +kernel

/-- V6 row 8: both faults, `BadOperand` wins (R148). -/
theorem test_crc_bad_operand_wins :
    seen (exec (.crc .txbuf) (withBytes .txbuf frameV6 300 255)) (fun s => (s.errWord, s.statusWord)) =
      some (0x04, 0x02) := by decide +kernel

/-- V7 row 3. -/
theorem test_enc_two_bytes :
    seen (exec (.enc .pbuf) (withBytes .pbuf [0xAB, 0xCD] 1 0)) (fun s => (s.readBytes .txbuf 0 8, s.flen)) =
      some (frameV6, 8) := by decide +kernel

/-- V8 row 3: `N` = 249 is one too many. -/
theorem test_enc_too_large :
    seen (exec (.enc .pbuf) (withBytes .pbuf [] 249 0)) (fun s => (s.errWord, s.flen, s.txbuf)) =
      some (0x01, 0, []) := by decide +kernel

/-- V10 row 5: VAL trusts `ti`. -/
theorem test_val_wrong_trailer :
    seen (exec (.val .txbuf) (withBytes .txbuf frameV6 5 0)) (fun s => (s.diagCalc, s.diagRecv, s.valid, s.errCode)) =
      some (0x2F90, 0xEECD, false, .none) := by decide +kernel

/-- V10 row 4: the frame's own trailer. -/
theorem test_val_match :
    seen (exec (.val .txbuf) (withBytes .txbuf frameV6 6 0)) (fun s => (s.diagRecv, s.statusWord)) =
      some (0xF9EE, 0x06) := by decide +kernel

/-- V12 rows 10 and 11: byte positions in both wire orders. -/
theorem test_dec_wire_orders :
    seen (exec (.dec .rxbuf) (withBytes .rxbuf [0, 1, 2, 3, 4] 1 0)) (fun s => s.reading) = some 0x04030201 ∧
    seen (exec (.dec .rxbuf) { (withBytes .rxbuf [0, 1, 2, 3, 4] 1 0) with cfg := 2 }) (fun s => s.reading) =
      some 0x01020304 := by decide +kernel

/-- V14 row 7: no wrap to index 2. -/
theorem test_dec_no_wrap :
    seen (exec (.dec .rxbuf) (withBytes .rxbuf [0, 1, 2, 3, 4, 5] 65535 0)) (fun s => (s.reading, s.errWord)) =
      some (0, 0x04) := by decide +kernel

/-- P3, step 1. -/
theorem test_rdt_start :
    seen (step (withInputs [.host (.wreg .cmd 0x05#8)])) (fun s => s.outputs) =
      some [.transmit [0x55, 0x02, 0x00, 0x00, 0xD0, 0x00, 0xAA]] ∧
    seen (step (withInputs [.host (.wreg .cmd 0x05#8)]))
      (fun s => (s.pstate, s.xreq, s.flen, s.eng.crc, s.readByte .rxbuf 279)) =
      some (.sending, .tx, 7, 0x00D0, 0) := by decide +kernel

/-- V18 row J, the last step: strict mode confirms a response whose checksum matches. -/
theorem test_rdt_strict_confirms :
    seen (step (awaiting .rx 0 0 1 [.receiveOk goodResponse]))
      (fun s => (s.reading, s.pstate, s.attempt, s.diagCalc, s.statusWord)) =
      some (0x41BE0000, .confirmed, 1, 0x3822, 0x06) := by decide +kernel

/-- V18 row K, the last step: four mismatches end `Exhausted`, `ERR` = 43. -/
theorem test_rdt_strict_exhausts :
    seen (step (awaiting .rx 0 3 1 [.receiveOk badResponse])) (fun s => (s.errWord, s.pstate, s.diagRecv, s.reading)) =
      some (0x43, .exhausted, 0x3823, 0) := by decide +kernel

/-- V17 row H: the marker alone confirms, and the reading is the zeros of the clear. -/
theorem test_rdt_short_response :
    seen (step (awaiting .rx 0 0 0 [.receiveOk [0x55, 0x22]])) (fun s => (s.reading, s.pstate, s.rxcnt)) =
      some (0, .confirmed, 2) := by decide +kernel

/-- V4: the catalogue value of "123456789". -/
theorem test_crc16_check_value :
    crc16 [0x31, 0x32, 0x33, 0x34, 0x35, 0x36, 0x37, 0x38, 0x39] = 0x4B37 := by decide +kernel

/-- 25.5 as a float (V12 row 1, R107): `13369344 * 2^-19`. -/
theorem test_f32_value : f32Value 0x41CC0000 = .finite false 13369344 (-19) := by decide

/-! ### Witnesses: for each obligation with hypotheses, states and operands that meet them -/

theorem witness_CommandWordsDecodeAndEncodeAgree :
    decode 0x01#8 = .ok (.crc .pbuf) ∧ decode 0x1D#8 = .ok (.rdt .reserved) := ⟨rfl, rfl⟩

theorem witness_IllegalWordRaisesIllegalOp :
    decode 0x00#8 = .error .reservedOp ∧ decode 0x20#8 = .error .reservedBits ∧ decode 0xFF#8 = .error .reservedBits ∧
    ∃ s : State, s.busy = false ∧ s.inputs = .host (.wreg .cmd 0xFF#8) :: [] :=
  ⟨rfl, rfl, rfl, withInputs [.host (.wreg .cmd 0xFF#8)], rfl, rfl⟩

theorem witness_StepRunsDecodedCommand :
    ∃ s : State, s.busy = false ∧ decode 0x1D#8 = .ok (.rdt .reserved) ∧
      s.inputs = .host (.wreg .cmd 0x1D#8) :: [.tick] :=
  ⟨withInputs [.host (.wreg .cmd 0x1D#8), .tick], rfl, rfl, rfl⟩

theorem witness_FetchWordIsRunByNextStep :
    decodeTableWord 8 0x01 = some (.crc .pbuf) ∧ decodeTableWord 8 0x1D = some (.rdt .reserved) := ⟨rfl, rfl⟩

theorem witness_ResetInputResetsEverything : ∃ s : State, s.busy = true ∧ s.inputs = .reset :: [.tick] :=
  ⟨awaiting .rx 0 0 0 [.reset, .tick], by decide +kernel, rfl⟩

theorem witness_RegisterReadReturnsValue :
    (∃ s : State, s.busy = false ∧ s.inputs = .host (.rreg .cmd) :: []) ∧
    (∃ s : State, s.busy = false ∧ s.inputs = .host (.rreg (.reserved 15)) :: []) :=
  ⟨⟨withInputs [.host (.rreg .cmd)], rfl, rfl⟩, ⟨withInputs [.host (.rreg (.reserved 15))], rfl, rfl⟩⟩

theorem witness_RegisterWrites :
    (∃ s : State, s.busy = false ∧ s.inputs = .host (.wreg .arg0 0xFFFF) :: []) ∧
    (∃ s : State, s.busy = false ∧ s.inputs = .host (.wreg .arg1 0xFFFF) :: []) ∧
    (∃ s : State, s.busy = false ∧ s.inputs = .host (.wreg .cfg 3) :: []) ∧
    (∃ s : State, s.busy = false ∧ s.inputs = .host (.wreg .settle 0) :: []) ∧
    (∃ s : State, s.busy = false ∧ s.inputs = .host (.wreg .cmd 0xFF) :: []) ∧
    (∃ s : State, s.busy = false ∧ regNumber .status ∉ [0, 1, 2, 12, 13] ∧
      s.inputs = .host (.wreg .status 7) :: []) ∧
    (∃ s : State, s.busy = false ∧ regNumber (.reserved 15) ∉ [0, 1, 2, 12, 13] ∧
      s.inputs = .host (.wreg (.reserved 15) 1) :: []) :=
  ⟨⟨withInputs _, rfl, rfl⟩, ⟨withInputs _, rfl, rfl⟩, ⟨withInputs _, rfl, rfl⟩, ⟨withInputs _, rfl, rfl⟩,
    ⟨withInputs _, rfl, rfl⟩, ⟨withInputs _, rfl, by decide, rfl⟩, ⟨withInputs _, rfl, by decide, rfl⟩⟩

theorem witness_ReadOnlyAndReservedWritesIgnored :
    (∃ s : State, s.busy = false ∧ regNumber .status ∈ [3, 4, 5, 6, 7, 8, 9, 10, 11, 14, 15] ∧
      s.inputs = .host (.wreg .status 7) :: []) ∧
    (∃ s : State, s.busy = false ∧ regNumber .rxcnt ∈ [3, 4, 5, 6, 7, 8, 9, 10, 11, 14, 15] ∧
      s.inputs = .host (.wreg .rxcnt 1) :: []) ∧
    (∃ s : State, s.busy = false ∧ 16 ≤ regNumber (.reserved 0) ∧ s.inputs = .host (.wreg (.reserved 0) 1) :: []) ∧
    (∃ s : State, s.busy = false ∧ 16 ≤ regNumber (.reserved 15) ∧ s.inputs = .host (.wreg (.reserved 15) 1) :: []) :=
  ⟨⟨withInputs _, rfl, by decide, rfl⟩, ⟨withInputs _, rfl, by decide, rfl⟩, ⟨withInputs _, rfl, by decide, rfl⟩,
    ⟨withInputs _, rfl, by decide, rfl⟩⟩

theorem witness_BufferTransactions :
    (0 < BufId.pbuf.cap ∧ 248 < BufId.pbuf.cap ∧ 254 < BufId.txbuf.cap ∧ 279 < BufId.rxbuf.cap) ∧
    (∃ s : State, s.busy = false ∧ s.inputs = .host (.rbuf .rxbuf 279) :: []) ∧
    (∃ s : State, s.busy = false ∧ s.inputs = .host (.wbuf .rxbuf 279 0xFF) :: []) :=
  ⟨by decide, ⟨withInputs _, rfl, rfl⟩, ⟨withInputs _, rfl, rfl⟩⟩

theorem witness_BufferIndexOutsideIsRefused :
    (BufId.pbuf.cap ≤ 249 ∧ BufId.txbuf.cap ≤ 255 ∧ BufId.rxbuf.cap ≤ 280) ∧
    (∃ s : State, s.busy = false ∧ s.inputs = .host (.rbuf .pbuf 249) :: []) ∧
    (∃ s : State, s.busy = false ∧ s.inputs = .host (.wbuf .rxbuf 280 0) :: []) :=
  ⟨by decide, ⟨withInputs _, rfl, rfl⟩, ⟨withInputs _, rfl, rfl⟩⟩

theorem witness_HostShutOutWhileBusy :
    regNumber .timer ∈ [3, 8, 9, 14] ∧ regNumber .rxcnt ∉ [3, 8, 9, 14] ∧
    (∃ s : State, s.busy = true ∧ s.inputs = .host (.rreg .timer) :: []) ∧
    (∃ s : State, s.busy = true ∧ s.inputs = .host (.rreg .rxcnt) :: []) ∧
    (∃ s : State, s.busy = true ∧ s.inputs = .host (.wreg .cmd 0x05) :: []) ∧
    (∃ s : State, s.busy = true ∧ s.inputs = .host (.rbuf .txbuf 0) :: []) ∧
    (∃ s : State, s.busy = true ∧ s.inputs = .host (.wbuf .txbuf 0 0) :: []) := by
  have h : ∀ es, (awaiting .rx 0 0 0 es).busy = true := fun es =>
    (show (awaiting .rx 0 0 0 es).busy = (awaiting .rx 0 0 0 []).busy from rfl).trans (by decide +kernel)
  exact ⟨by decide, by decide, ⟨_, h [.host (.rreg .timer)], rfl⟩, ⟨_, h [.host (.rreg .rxcnt)], rfl⟩,
    ⟨_, h [.host (.wreg .cmd 0x05)], rfl⟩, ⟨_, h [.host (.rbuf .txbuf 0)], rfl⟩, ⟨_, h [.host (.wbuf .txbuf 0 0)], rfl⟩⟩

theorem witness_EngineMicroOperations :
    ((0 ≤ 279 ∧ 279 < BufId.rxbuf.cap) ∧ (248 ≤ 248 ∧ 248 < BufId.pbuf.cap)) ∧
    (Engine.seed 0 279).phase = .absorb ∧
    (∃ g : Engine, g.phase = .shift ∧ g.bitcnt.toNat < 7 ∧ g.bitcnt.toNat = 6) ∧
    (∃ g : Engine, g.phase = .shift ∧ g.bitcnt.toNat = 7 ∧ g.idx = g.eidx) ∧
    (∃ g : Engine, g.phase = .shift ∧ g.bitcnt.toNat = 7 ∧ g.idx ≠ g.eidx) :=
  ⟨by decide, rfl, ⟨{ crc := 1, idx := 0, eidx := 1, bitcnt := 6, phase := .shift }, by decide⟩,
    ⟨{ crc := 1, idx := 1, eidx := 1, bitcnt := 7, phase := .shift }, by decide⟩,
    ⟨{ crc := 1, idx := 0, eidx := 1, bitcnt := 7, phase := .shift }, by decide⟩⟩

theorem witness_AbsorbAndEightShiftsProcessOneByte :
    ((Engine.seed 3 3).phase = .absorb ∧ (Engine.seed 3 3).idx = (Engine.seed 3 3).eidx) ∧
    ((Engine.seed 0 279).phase = .absorb ∧ (Engine.seed 0 279).idx ≠ (Engine.seed 0 279).eidx) := by decide

theorem witness_EngineRunComputesPureChecksum :
    (0 ≤ 279 ∧ 279 < BufId.rxbuf.cap) ∧ (254 ≤ 254 ∧ 254 < BufId.txbuf.cap) := by decide

theorem witness_EngineRunEndsAfterNineStepsPerByte :
    (0 ≤ 511 ∧ 511 < 512) ∧ 4607 < 9 * (511 - 0 + 1) := by decide

theorem witness_ChecksumResidueIsZero : [(0x00 : Byte)] ≠ [] := by decide

theorem witness_CrcComputesRangeChecksum :
    (∃ s : State, BufId.rxbuf.cap ≤ s.arg1.toNat ∧ s.arg1 = 280) ∧
    (∃ s : State, s.arg1.toNat < BufId.rxbuf.cap ∧ s.arg1.toNat < s.arg0.toNat ∧ s.arg1 = 279 ∧ s.arg0 = 280) ∧
    (∃ s : State, s.arg1.toNat < BufId.rxbuf.cap ∧ s.arg0.toNat ≤ s.arg1.toNat ∧ s.arg1 = 279 ∧ s.arg0 = 279) :=
  ⟨⟨withBytes .rxbuf [] 0 280, by decide⟩, ⟨withBytes .rxbuf [] 280 279, by decide⟩,
    ⟨withBytes .rxbuf [] 279 279, by decide⟩⟩

theorem witness_ChecksumDependsOnRangeOnly :
    ∃ s s' : State, s.pbuf ≠ s'.pbuf ∧ s.arg0 = s'.arg0 ∧ s.arg1 = s'.arg1 ∧ s.arg1.toNat < BufId.txbuf.cap ∧
      s.arg0.toNat ≤ s.arg1.toNat ∧
      ∀ i, s.arg0.toNat ≤ i → i ≤ s.arg1.toNat → s.readByte .txbuf i = s'.readByte .txbuf i :=
  ⟨withBytes .txbuf frameV6 1 254, { (withBytes .txbuf frameV6 1 254) with pbuf := [(0, 0x11)] }, by decide, rfl, rfl,
    by decide, by decide, fun _ _ _ => rfl⟩

theorem witness_EncBuildsFrame :
    (∃ s : State, s.arg0.toNat = 249 ∧ 249 + 7 > 255) ∧ (∃ s : State, s.arg0.toNat = 65535 ∧ 65535 + 7 > 255) ∧
    (∃ s : State, s.arg0.toNat = 248 ∧ 248 + 7 ≤ 255) ∧ (∃ s : State, s.arg0.toNat = 0 ∧ 0 + 7 ≤ 255) :=
  ⟨⟨withBytes .pbuf [] 249 0, by decide⟩, ⟨withBytes .pbuf [] 65535 0, by decide⟩, ⟨withBytes .pbuf [] 248 0, by decide⟩,
    ⟨withBytes .pbuf [] 0 0, by decide⟩⟩

theorem witness_EncodedChecksumMatchesFrame : ∃ s : State, s.arg0.toNat + 7 ≤ 255 ∧ s.arg0 = 248 :=
  ⟨withBytes .pbuf [] 248 0, by decide⟩

theorem witness_EncodedFrameValidates :
    (∃ s : State, s.arg0.toNat = 248 ∧ 248 + 7 ≤ 255) ∧ (∃ s : State, s.arg0.toNat = 0 ∧ 0 + 7 ≤ 255) :=
  ⟨⟨withBytes .pbuf [] 248 0, by decide⟩, ⟨withBytes .pbuf [] 0 0, by decide⟩⟩

theorem witness_WireFrameRoundTrip :
    (∃ p : List Byte, 1 ≤ p.length ∧ p.length ≤ 249 ∧ p.length = 1) ∧
    (∃ p : List Byte, 1 ≤ p.length ∧ p.length ≤ 249 ∧ p.length = 249) :=
  ⟨⟨[0x00], by decide⟩, ⟨List.replicate 249 0x55, by decide +kernel⟩⟩

theorem witness_ValComparesChecksums :
    (∃ s : State, (s.arg0.toNat < 3 ∨ BufId.rxbuf.cap ≤ s.arg0.toNat) ∧ s.arg0 = 2) ∧
    (∃ s : State, (s.arg0.toNat < 3 ∨ BufId.rxbuf.cap ≤ s.arg0.toNat) ∧ s.arg0 = 280) ∧
    (∃ s : State, 3 ≤ s.arg0.toNat ∧ s.arg0.toNat < BufId.rxbuf.cap ∧ s.arg0 = 3) ∧
    (∃ s : State, 3 ≤ s.arg0.toNat ∧ s.arg0.toNat < BufId.rxbuf.cap ∧ s.arg0 = 279) :=
  ⟨⟨withBytes .rxbuf [] 2 0, by decide⟩, ⟨withBytes .rxbuf [] 280 0, by decide⟩, ⟨withBytes .rxbuf [] 3 0, by decide⟩,
    ⟨withBytes .rxbuf [] 279 0, by decide⟩⟩

theorem witness_DecDeliversReading :
    (∃ s : State, BufId.rxbuf.cap ≤ s.arg0.toNat + 3 ∧ s.arg0 = 277) ∧
    (∃ s : State, s.arg0.toNat + 3 < BufId.rxbuf.cap ∧ s.arg0 = 276 ∧ s.cfg.getLsbD 1 = false) ∧
    (∃ s : State, s.arg0.toNat + 3 < BufId.rxbuf.cap ∧ s.arg0 = 276 ∧ s.cfg.getLsbD 1 = true) :=
  ⟨⟨withBytes .rxbuf [] 277 0, by decide⟩, ⟨withBytes .rxbuf [] 276 0, by decide⟩,
    ⟨{ (withBytes .rxbuf [] 276 0) with cfg := 2 }, by decide⟩⟩

theorem witness_ReadingAssemblyIsLossless :
    wireWord false 0x00 0x00 0xCC 0x41 = wireWord false 0x00 0x00 0xCC 0x41 ∧
    wireWord true 0xFF 0xFF 0xFF 0xFF = wireWord true 0xFF 0xFF 0xFF 0xFF := ⟨rfl, rfl⟩

theorem witness_TransmitOkStartsSettleWait :
    ∃ s : State, s.pstate = .sending ∧ s.xreq = .tx ∧ s.inputs = .transmitOk 7 :: [] :=
  ⟨{ sendingState with inputs := [.transmitOk 7] }, by decide +kernel⟩

theorem witness_TransportErrorEndsRead :
    (∃ s : State, s.pstate = .sending ∧ s.xreq = .tx ∧ s.inputs = .transmitErr :: []) ∧
    (∃ s : State, s.pstate = .awaitingResponse ∧ s.xreq = .rx ∧ s.inputs = .receiveErr :: []) :=
  ⟨⟨{ sendingState with inputs := [.transmitErr] }, by decide +kernel⟩,
    ⟨awaiting .rx 0 0 0 [.receiveErr], by decide +kernel⟩⟩

theorem witness_TickCountsSettleWait :
    (∃ s : State, s.pstate = .awaitingResponse ∧ s.xreq = .none ∧ s.timer ≠ 0 ∧ s.inputs = .tick :: []) ∧
    (∃ s : State, ¬ (s.pstate = .awaitingResponse ∧ s.xreq = .none ∧ s.timer ≠ 0) ∧ s.inputs = .tick :: [] ∧
      s.timer = 0) ∧
    (∃ s : State, s.pstate = .awaitingResponse ∧ s.xreq = .none ∧ s.timer ≠ 0 ∧ s.inputs = .sequencer :: []) ∧
    (∃ s : State, s.pstate = .sending ∧ s.xreq = .tx ∧ s.settle = 1 ∧
      s.inputs = .transmitOk 7 :: (List.replicate s.settle.toNat .tick ++ [])) :=
  ⟨⟨awaiting .none 1 0 0 [.tick], by decide +kernel⟩, ⟨awaiting .none 0 0 0 [.tick], by decide +kernel⟩,
    ⟨awaiting .none 65535 0 0 [.sequencer], by decide +kernel⟩,
    ⟨{ sendingState with settle := 1, inputs := [.transmitOk 7, .tick] }, by decide +kernel⟩⟩

theorem witness_SettledSequencerPostsReceive :
    (∃ s : State, s.busy = true ∧ s.pstate = .awaitingResponse ∧ s.xreq = .none ∧ s.timer = 0 ∧ s.inputs = []) ∧
    (∃ s : State, s.busy = true ∧ s.pstate = .awaitingResponse ∧ s.xreq = .none ∧ s.timer = 0 ∧
      s.inputs = .sequencer :: []) :=
  ⟨⟨awaiting .none 0 0 0 [], by decide +kernel⟩, ⟨awaiting .none 0 0 0 [.sequencer], by decide +kernel⟩⟩

/-- The bytes a `Receive` leaves in `RXBUF`, as the two statements about it take them. -/
def heldAfter (s : State) (bytes : List Byte) (i : Nat) : Byte := bytes.getD i (s.readByte .rxbuf i)

theorem witness_ReceiveOkMarkerDecides :
    (∃ s : State, s.pstate = .awaitingResponse ∧ s.xreq = .rx ∧ goodResponse.length ≤ 280 ∧
      s.inputs = .receiveOk goodResponse :: [] ∧ heldAfter s goodResponse 1 = 0x22 ∧ s.cfg.getLsbD 0 = false) ∧
    (∃ s : State, s.pstate = .awaitingResponse ∧ s.xreq = .rx ∧ ([] : List Byte).length ≤ 280 ∧
      s.inputs = .receiveOk [] :: [] ∧ heldAfter s [] 1 ≠ 0x22 ∧ s.attempt.toNat < 3 ∧ s.attempt = 2) ∧
    (∃ s : State, s.pstate = .awaitingResponse ∧ s.xreq = .rx ∧ (List.replicate 280 (0 : Byte)).length ≤ 280 ∧
      s.inputs = .receiveOk (List.replicate 280 0) :: [] ∧ heldAfter s (List.replicate 280 0) 1 ≠ 0x22 ∧
      s.attempt.toNat = 3) :=
  ⟨⟨awaiting .rx 0 0 0 [.receiveOk goodResponse], by decide +kernel⟩,
    ⟨awaiting .rx 0 2 0 [.receiveOk []], by decide +kernel⟩,
    ⟨awaiting .rx 0 3 0 [.receiveOk (List.replicate 280 0)], by decide +kernel⟩⟩

/-- A response of 280 bytes with the largest length byte, its checksum bytes 0. -/
def longestResponse : List Byte := [0x55, 0x22, 0xFF] ++ List.replicate 277 0x00

theorem witness_ReceiveOkStrictChecksumDecides :
    (∃ s : State, s.pstate = .awaitingResponse ∧ s.xreq = .rx ∧ goodResponse.length ≤ 280 ∧
      s.inputs = .receiveOk goodResponse :: [] ∧ heldAfter s goodResponse 1 = 0x22 ∧ s.cfg.getLsbD 0 = true ∧
      (heldAfter s goodResponse 2).toNat = 11 ∧
      crc16 ((List.range' 1 (11 + 3)).map (heldAfter s goodResponse)) =
        heldAfter s goodResponse (11 + 5) ++ heldAfter s goodResponse (11 + 4)) ∧
    (∃ s : State, s.pstate = .awaitingResponse ∧ s.xreq = .rx ∧ longestResponse.length ≤ 280 ∧
      s.inputs = .receiveOk longestResponse :: [] ∧ heldAfter s longestResponse 1 = 0x22 ∧ s.cfg.getLsbD 0 = true ∧
      (heldAfter s longestResponse 2).toNat = 255) ∧
    (∃ s : State, s.pstate = .awaitingResponse ∧ s.xreq = .rx ∧ badResponse.length ≤ 280 ∧
      s.inputs = .receiveOk badResponse :: [] ∧ heldAfter s badResponse 1 = 0x22 ∧ s.cfg.getLsbD 0 = true ∧
      (heldAfter s badResponse 2).toNat = 11 ∧
      crc16 ((List.range' 1 (11 + 3)).map (heldAfter s badResponse)) ≠
        heldAfter s badResponse (11 + 5) ++ heldAfter s badResponse (11 + 4) ∧
      s.attempt.toNat < 3 ∧ s.attempt = 2) ∧
    (∃ s : State, s.pstate = .awaitingResponse ∧ s.xreq = .rx ∧ badResponse.length ≤ 280 ∧
      s.inputs = .receiveOk badResponse :: [] ∧ heldAfter s badResponse 1 = 0x22 ∧ s.cfg.getLsbD 0 = true ∧
      (heldAfter s badResponse 2).toNat = 11 ∧
      crc16 ((List.range' 1 (11 + 3)).map (heldAfter s badResponse)) ≠
        heldAfter s badResponse (11 + 5) ++ heldAfter s badResponse (11 + 4) ∧
      s.attempt.toNat = 3) :=
  ⟨⟨awaiting .rx 0 0 1 [.receiveOk goodResponse], by decide +kernel⟩,
    ⟨awaiting .rx 0 2 1 [.receiveOk longestResponse], by decide +kernel⟩,
    ⟨awaiting .rx 0 2 1 [.receiveOk badResponse], by decide +kernel⟩,
    ⟨awaiting .rx 0 3 1 [.receiveOk badResponse], by decide +kernel⟩⟩

theorem witness_RetryingSendsSameFrameAgain :
    (∃ s : State, s.busy = true ∧ s.pstate = .retrying ∧ s.inputs = []) ∧
    (∃ s : State, s.busy = true ∧ s.pstate = .retrying ∧ s.inputs = .sequencer :: []) :=
  ⟨⟨{ sendingState with pstate := .retrying, xreq := .none, attempt := 1 }, by decide +kernel⟩,
    ⟨{ sendingState with pstate := .retrying, xreq := .none, attempt := 3, inputs := [.sequencer] }, by decide +kernel⟩⟩

theorem witness_OverlongReceiveIsRefused :
    ∃ s : State, s.pstate = .awaitingResponse ∧ s.xreq = .rx ∧ 280 < (List.replicate 281 (0 : Byte)).length ∧
      s.inputs = .receiveOk (List.replicate 281 0) :: [] :=
  ⟨awaiting .rx 0 0 0 [.receiveOk (List.replicate 281 0)], by decide +kernel⟩

theorem witness_IdleMachineIgnoresEverythingButHost :
    ∃ s : State, s.Inv ∧ s.busy = false ∧ s.inputs = .receiveOk goodResponse :: [] ∧
      (∀ t, Input.receiveOk goodResponse ≠ .host t) ∧ Input.receiveOk goodResponse ≠ .reset :=
  ⟨withInputs [.receiveOk goodResponse], by decide +kernel, rfl, rfl, by simp, by simp⟩

theorem witness_OutstandingRequestBlocksSequencer_silent : ∃ s : State, s.Inv ∧ s.xreq ≠ .none ∧ s.inputs = [] :=
  ⟨sendingState, by decide +kernel⟩

theorem witness_OutstandingRequestBlocksSequencer_otherKind :
    ∃ s : State, s.Inv ∧ s.xreq ≠ .none ∧ s.inputs = .receiveOk goodResponse :: [] ∧
      (∀ t, Input.receiveOk goodResponse ≠ .host t) ∧ Input.receiveOk goodResponse ≠ .reset ∧
      (s.xreq = .tx → (∀ count, Input.receiveOk goodResponse ≠ .transmitOk count) ∧
        Input.receiveOk goodResponse ≠ .transmitErr) ∧ s.xreq ≠ .rx :=
  ⟨{ sendingState with inputs := [.receiveOk goodResponse] }, by decide +kernel, by decide +kernel, rfl, by simp, by simp,
    by simp, by decide +kernel⟩

theorem witness_OutstandingRequestBlocksSequencer_tick :
    ∃ s : State, s.Inv ∧ s.xreq = .rx ∧ s.inputs = .tick :: [] ∧ (∀ t, Input.tick ≠ .host t) ∧ Input.tick ≠ .reset ∧
      (∀ bytes, Input.tick ≠ .receiveOk bytes) ∧ Input.tick ≠ .receiveErr :=
  ⟨awaiting .rx 0 3 0 [.tick], by decide +kernel, by decide +kernel, rfl, by simp, by simp, by simp, by simp⟩

theorem witness_OutstandingRequestBlocksSequencer_host :
    ∃ s t : State, s.Inv ∧ s.xreq ≠ .none ∧ s.inputs = .host (.rreg .status) :: [] ∧ step s = .next t := by
  obtain ⟨t, ht, -⟩ := exists_next (p := fun _ => true) (o := step (awaiting .rx 0 0 0 [.host (.rreg .status)]))
    (by decide +kernel)
  exact ⟨_, t, by decide +kernel, by decide +kernel, rfl, ht⟩

theorem witness_UnaskedAnswersChangeNothing :
    (∃ s : State, s.pstate = .sending ∧ s.xreq ≠ .rx ∧ s.inputs = .receiveOk goodResponse :: []) ∧
    (∃ s : State, s.pstate = .sending ∧ s.xreq ≠ .rx ∧ s.inputs = .receiveErr :: []) ∧
    (∃ s : State, s.pstate = .awaitingResponse ∧ s.xreq ≠ .tx ∧ s.inputs = .transmitOk 7 :: []) ∧
    (∃ s : State, s.pstate = .awaitingResponse ∧ s.xreq ≠ .tx ∧ s.inputs = .transmitErr :: []) :=
  ⟨⟨{ sendingState with inputs := [.receiveOk goodResponse] }, by decide +kernel, by decide +kernel, rfl⟩,
    ⟨{ sendingState with inputs := [.receiveErr] }, by decide +kernel, by decide +kernel, rfl⟩,
    ⟨awaiting .none 5 0 0 [.transmitOk 7], rfl, by decide +kernel, rfl⟩,
    ⟨awaiting .rx 0 0 0 [.transmitErr], rfl, by decide +kernel, rfl⟩⟩

theorem witness_RaiseEndsOperationWithError_start :
    ∃ s t : State, s.Inv ∧ step s = .next t ∧ t.errCode ≠ .none ∧ s.inputs.head? = some (.host (.wreg .cmd 0xFF#8)) := by
  obtain ⟨t, ht, hp⟩ := exists_next (p := fun t => decide (t.errCode ≠ .none))
    (o := step (withInputs [.host (.wreg .cmd 0xFF#8)])) (by decide +kernel)
  exact ⟨_, t, by decide +kernel, ht, of_decide_eq_true hp, rfl⟩

theorem witness_RaiseEndsOperationWithError_busy :
    ∃ s t : State, s.Inv ∧ step s = .next t ∧ t.errCode ≠ .none ∧ s.busy = true := by
  obtain ⟨t, ht, hp⟩ := exists_next (p := fun t => decide (t.errCode ≠ .none))
    (o := step (awaiting .rx 0 1 0 [.receiveErr])) (by decide +kernel)
  exact ⟨_, t, by decide +kernel, ht, of_decide_eq_true hp, by decide +kernel⟩

/-- R149: a cause is kept with `BadResponse` alone. -/
theorem test_raise_cause_only_with_badResponse :
    (State.reset.raise .badOperand .txFail).errCause = .none ∧
    (State.reset.raise .badResponse .txFail).errCause = .txFail := ⟨rfl, rfl⟩

theorem witness_EveryStepKeepsInvariant : ∃ s t : State, s.Inv ∧ step s = .next t ∧ s.busy = true := by
  obtain ⟨t, ht, -⟩ := exists_next (p := fun _ => true) (o := step (awaiting .rx 0 0 1 [.receiveOk goodResponse]))
    (by decide +kernel)
  exact ⟨_, t, by decide +kernel, ht, by decide +kernel⟩

theorem witness_PollStateMovesOnlyByTable :
    (∃ s t : State, s.Inv ∧ step s = .next t ∧ t.pstate ≠ s.pstate ∧ s.pstate = .idle) ∧
    (∃ s t : State, s.Inv ∧ step s = .next t ∧ t.pstate ≠ s.pstate ∧ s.pstate = .awaitingResponse) := by
  obtain ⟨t, ht, hp⟩ := exists_next (p := fun t => decide (t.pstate ≠ .idle))
    (o := step (withInputs [.host (.wreg .cmd 0x05)])) (by decide +kernel)
  obtain ⟨u, hu, hq⟩ := exists_next (p := fun t => decide (t.pstate ≠ .awaitingResponse))
    (o := step (awaiting .rx 0 3 0 [.receiveOk negResponse])) (by decide +kernel)
  exact ⟨⟨_, t, by decide +kernel, ht, of_decide_eq_true hp, rfl⟩, ⟨_, u, by decide +kernel, hu, of_decide_eq_true hq, rfl⟩⟩

/-- A state whose next step is a DEC of `RXBUF[0..3]`. -/
def decNext : State := { (withBytes .rxbuf [1, 2, 3, 4] 0 0) with inputs := [.host (.wreg .cmd 0x14)] }

theorem witness_ReadingWrittenOnlyByDecAndConfirmed : ∃ s t : State, step s = .next t ∧ t.reading ≠ s.reading := by
  obtain ⟨t, ht, hp⟩ := exists_next (p := fun t => decide (t.reading ≠ 0)) (o := step decNext) (by decide +kernel)
  exact ⟨decNext, t, ht, of_decide_eq_true hp⟩

theorem witness_SequencerNeverWritesHostState :
    (∃ s t : State, step s = .next t ∧ s.inputs.head? ≠ some .reset ∧ t.cmd ≠ s.cmd) ∧
    (∃ s t : State, step s = .next t ∧ s.inputs.head? ≠ some .reset ∧ t.arg0 ≠ s.arg0) ∧
    (∃ s t : State, step s = .next t ∧ s.inputs.head? ≠ some .reset ∧ t.arg1 ≠ s.arg1) ∧
    (∃ s t : State, step s = .next t ∧ s.inputs.head? ≠ some .reset ∧ t.cfg ≠ s.cfg) ∧
    (∃ s t : State, step s = .next t ∧ s.inputs.head? ≠ some .reset ∧ t.settle ≠ s.settle) ∧
    (∃ s t : State, step s = .next t ∧ s.inputs.head? ≠ some .reset ∧ t.pbuf ≠ s.pbuf) :=
  ⟨⟨withInputs [.host (.wreg .cmd 0xFF)], _, rfl, by decide, by decide⟩,
    ⟨withInputs [.host (.wreg .arg0 1)], _, rfl, by decide, by decide⟩,
    ⟨withInputs [.host (.wreg .arg1 1)], _, rfl, by decide, by decide⟩,
    ⟨withInputs [.host (.wreg .cfg 3)], _, rfl, by decide, by decide⟩,
    ⟨withInputs [.host (.wreg .settle 0)], _, rfl, by decide, by decide⟩,
    ⟨withInputs [.host (.wbuf .pbuf 248 0)], _, rfl, by decide, by decide⟩⟩

/-- Only a state that no run reaches has this code, so the witness is such a state. -/
theorem witness_MessageGenerationFailedNeverRaised :
    ∃ s t : State, step s = .next t ∧ t.errCode = .messageGenerationFailed :=
  ⟨{ State.reset with errCode := .messageGenerationFailed }, _, rfl, rfl⟩

theorem witness_ResultsStayUntilNextStart :
    ∃ s t : State, s.Inv ∧ s.busy = false ∧ step s = .next t ∧
      (∀ w, s.inputs.head? ≠ some (.host (.wreg .cmd w))) ∧ s.inputs.head? ≠ some .reset :=
  ⟨withInputs [.host (.wreg .settle 0)], _, by decide +kernel, rfl, rfl, by simp [withInputs], by simp [withInputs]⟩

theorem witness_OnlyReadFrameIsTransmitted :
    ∃ (s t : State) (bytes : List Byte), s.Inv ∧ step s = .next t ∧ t.outputs = .transmit bytes :: s.outputs := by
  obtain ⟨t, ht, hp⟩ := exists_next (p := fun t => decide (t.outputs = [.transmit readFrame]))
    (o := step (withInputs [.host (.wreg .cmd 0x05)])) (by decide +kernel)
  exact ⟨_, t, readFrame, by decide +kernel, ht, of_decide_eq_true hp⟩

theorem witness_TransmitFailureEndsReadWithoutReceive :
    ∃ s : State, s.busy = false ∧ s.inputs = .host (.wreg .cmd (encode (.rdt .pbuf))) :: .transmitErr :: [] :=
  ⟨withInputs [.host (.wreg .cmd (encode (.rdt .pbuf))), .transmitErr], rfl, rfl⟩

theorem witness_ReadExhaustsAfterFourCycles :
    ∃ (s : State) (responses : List (List Byte)), s.busy = false ∧ responses.length = 4 ∧
      (∀ r ∈ responses, r.length ≤ 280 ∧ r[1]? ≠ some 0x22#8) ∧ [] ∈ responses ∧
      s.inputs = .host (.wreg .cmd (encode (.rdt .pbuf))) :: (cyclesInputs s.settle.toNat 7 responses ++ []) :=
  ⟨{ State.reset with
      settle := 1
      inputs := .host (.wreg .cmd (encode (.rdt .pbuf))) ::
        (cyclesInputs 1 7 [negResponse, [], List.replicate 280 0xFF, negResponse] ++ []) },
    [negResponse, [], List.replicate 280 0xFF, negResponse], by decide +kernel⟩

theorem witness_ReadConfirmsAtFirstMarkedResponse :
    (∃ s : State, s.busy = false ∧ s.cfg.getLsbD 0 = false ∧ ([] : List (List Byte)).length < 4 ∧
      goodResponse.length ≤ 280 ∧ goodResponse[1]? = some 0x22#8 ∧
      s.inputs = .host (.wreg .cmd (encode (.rdt .pbuf))) ::
        (cyclesInputs s.settle.toNat 7 ([] ++ [goodResponse]) ++ [])) ∧
    (∃ (s : State) (before : List (List Byte)), s.busy = false ∧ s.cfg.getLsbD 0 = false ∧ before.length < 4 ∧
      before.length = 3 ∧ (∀ r ∈ before, r.length ≤ 280 ∧ r[1]? ≠ some 0x22#8) ∧ goodResponse.length ≤ 280 ∧
      goodResponse[1]? = some 0x22#8 ∧
      s.inputs = .host (.wreg .cmd (encode (.rdt .pbuf))) ::
        (cyclesInputs s.settle.toNat 7 (before ++ [goodResponse]) ++ [])) :=
  ⟨⟨{ State.reset with
      settle := 0
      inputs := .host (.wreg .cmd (encode (.rdt .pbuf))) :: (cyclesInputs 0 7 ([] ++ [goodResponse]) ++ []) },
    by decide +kernel⟩,
    ⟨{ State.reset with
      settle := 1
      inputs := .host (.wreg .cmd (encode (.rdt .pbuf))) ::
        (cyclesInputs 1 7 ([negResponse, [], negResponse] ++ [goodResponse]) ++ []) },
    [negResponse, [], negResponse], by decide +kernel⟩⟩

end Sys2Proof.Tests
end

section
/-! The Checksum Engine run to its end (40_crc.md R84): one absorb and eight shifts are `crcByte` of one byte, so a run
over a range ends at rest, with the pure checksum of the range's bytes. -/

namespace Sys2Proof

/-- Every index of a buffer fits the 9 bits of the micro-position (20_memory.md R40). -/
theorem BufId.cap_le (b : BufId) : b.cap ≤ 280 := by cases b <;> decide

namespace Machine

/-- Shifts below the eighth change the register and the bit count only (R83). -/
theorem Engine.iterate_shift (rd : Nat → Byte) (k : Nat) {g : Engine} (hp : g.phase = .shift)
    (hk : g.bitcnt.toNat + k ≤ 7) :
    Engine.iterate rd k g = { g with crc := crcBits k g.crc, bitcnt := g.bitcnt + BitVec.ofNat 3 k } := by
  induction k generalizing g with
  | zero => simp
  | succ k ih =>
    have hlt : g.bitcnt.toNat < 7 := by omega
    have hshift : g.shift = { g with crc := crcBit g.crc, bitcnt := g.bitcnt + 1 } := by
      simp only [Engine.shift, hlt, if_true]
    have hcount : (g.bitcnt + 1).toNat + k ≤ 7 := by bv_omega
    have hsum : g.bitcnt + 1 + BitVec.ofNat 3 k = g.bitcnt + BitVec.ofNat 3 (k + 1) := by
      rw [BitVec.add_assoc, Nat.add_comm k 1, BitVec.ofNat_add]; rfl
    rw [Engine.iterate_succ, Engine.micro_shift hp, hshift,
      ih (g := { g with crc := crcBit g.crc, bitcnt := g.bitcnt + 1 }) hp hcount, hsum, crcBits_succ]

/-- The nine micro-operations of one byte (R84): its `crcByte`, then the next byte, or rest after the last one. -/
theorem Engine.iterate_byte (rd : Nat → Byte) {g : Engine} (hp : g.phase = .absorb) :
    Engine.iterate rd 9 g =
      if g.idx = g.eidx then { g with crc := crcByte g.crc (rd g.idx.toNat), bitcnt := 7, phase := .off }
      else { g with crc := crcByte g.crc (rd g.idx.toNat), idx := g.idx + 1, bitcnt := 0 } := by
  have hseven := Engine.iterate_shift rd 7 (g := g.absorb (rd g.idx.toNat)) rfl (Nat.le_refl 7)
  rw [Engine.iterate_add rd 1 8, Engine.iterate_add rd 7 1]
  simp only [Engine.iterate_succ rd 0, Engine.iterate_zero]
  rw [Engine.micro_absorb hp, hseven, Engine.micro_shift rfl]
  by_cases hi : g.idx = g.eidx
  · simp [Engine.shift, Engine.absorb, hi, crcByte, crcBits]
  · simp [Engine.shift, Engine.absorb, hi, crcByte, crcBits, hp]

/-- A run from `idx` to `idx + n` (R84) absorbs the `n + 1` bytes in order and ends at rest at the last index. -/
theorem Engine.iterate_range (rd : Nat → Byte) (n : Nat) {g : Engine} (hp : g.phase = .absorb)
    (hn : g.idx.toNat + n = g.eidx.toNat) :
    Engine.iterate rd (9 * (n + 1)) g =
      { crc := crcFrom g.crc ((List.range' g.idx.toNat (n + 1)).map rd)
        idx := g.eidx, eidx := g.eidx, bitcnt := 7, phase := .off } := by
  induction n generalizing g with
  | zero =>
    have hi : g.idx = g.eidx := BitVec.eq_of_toNat_eq hn
    rw [show 9 * (0 + 1) = 9 from rfl, Engine.iterate_byte rd hp, if_pos hi]
    simp [hi, crcFrom]
  | succ n ih =>
    have hi : g.idx ≠ g.eidx := fun h => by rw [h] at hn; omega
    have hnext : (g.idx + 1).toNat = g.idx.toNat + 1 := by bv_omega
    have hrest : (g.idx + 1).toNat + n = g.eidx.toNat := by omega
    rw [show 9 * (n + 1 + 1) = 9 + 9 * (n + 1) by ring, Engine.iterate_add, Engine.iterate_byte rd hp, if_neg hi,
      ih (g := { g with crc := crcByte g.crc (rd g.idx.toNat), idx := g.idx + 1, bitcnt := 0 }) hp
        hrest, hnext]
    rfl

/-- Indices and counts below 512 fit the 9 bits of `IDX`, `EIDX`, `FLEN` and `RXCNT` (R11, R23). -/
theorem toNat_ofNat_nine {n : Nat} (h : n < 512) : (BitVec.ofNat 9 n).toNat = n := by
  rw [BitVec.toNat_ofNat, Nat.mod_eq_of_lt h]

/-- A run over a range ends at rest at the last index, with the checksum of the range's bytes (R84, R87). -/
theorem Engine.run_eq (rd : Nat → Byte) {first last : Nat} (h : first ≤ last) (hl : last < 512) :
    Engine.run rd first last =
      { crc := crc16 ((List.range' first (last - first + 1)).map rd)
        idx := BitVec.ofNat 9 last, eidx := BitVec.ofNat 9 last, bitcnt := 7, phase := .off } := by
  have hfirst : (BitVec.ofNat 9 first).toNat = first := toNat_ofNat_nine (by omega)
  have hlast : (BitVec.ofNat 9 last).toNat = last := toNat_ofNat_nine hl
  have hrange := Engine.iterate_range rd (last - first) (g := Engine.seed first last) rfl
    (by simp only [Engine.seed, hfirst, hlast]; omega)
  simp only [Engine.seed, hfirst] at hrange
  exact hrange

theorem Engine.run_phase (rd : Nat → Byte) {first last : Nat} (h : first ≤ last) (hl : last < 512) :
    (Engine.run rd first last).phase = .off := by rw [Engine.run_eq rd h hl]

/-- The register after a run is the pure function of the range (R87). -/
theorem State.crcRun_crc (s : State) (b : BufId) {first last : Nat} (h : first ≤ last) (hl : last < 512) :
    (s.crcRun b first last).eng.crc = s.crcRange b first last := by
  rw [State.crcRun_eng, Engine.run_eq _ h hl]; rfl

end Machine
end Sys2Proof
end

section
/-! The frame build (41_frame_encoder.md R90, R94): the bytes it leaves in `TXBUF`, and the memories it keeps canonical. -/

namespace Sys2Proof
namespace Machine

theorem State.readBytes_writeBytes_same (s : State) (b : BufId) (a : Nat) (vs : List Byte) :
    (s.writeBytes b a vs).readBytes b a vs.length = vs := by
  refine State.readBytes_eq fun i hi => ?_
  rw [State.readByte_writeBytes, if_pos ⟨rfl, by omega, by omega⟩]
  simp [hi]

theorem State.readBytes_writeBytes_of_disjoint (s : State) (b : BufId) {a first count : Nat} (vs : List Byte)
    (h : first + count ≤ a ∨ a + vs.length ≤ first) :
    (s.writeBytes b a vs).readBytes b first count = s.readBytes b first count := by
  refine List.map_congr_left fun i hi => ?_
  have hi := List.mem_range'_1.mp hi
  rw [State.readByte_writeBytes, if_neg (by omega)]

theorem State.readBytes_crcRun (s : State) (b c : BufId) (first last i count : Nat) :
    (s.crcRun b first last).readBytes c i count = s.readBytes c i count := rfl

/-- The checksum low and high byte and the end marker that close a frame (R63, R69). -/
def frameTrailer (c : Half) : List Byte := [lowByte c, highByte c, Config.endMark]

/-- The frame build up to its checksum run: header and payload (R90). -/
def State.writeFrameBody (s : State) (n : Nat) (payload : List Byte) : State :=
  (s.writeBytes .txbuf 0 [Config.startMark, Config.cmdReadProcess, BitVec.ofNat 8 n]).writeBytes .txbuf 3 payload

theorem State.buildFrame_eq (s : State) (n : Nat) (payload : List Byte) :
    s.buildFrame n payload =
      { ((s.writeFrameBody n payload).crcRun .txbuf 1 (3 + n)).writeBytes .txbuf (4 + n)
          (frameTrailer ((s.writeFrameBody n payload).crcRun .txbuf 1 (3 + n)).eng.crc) with
        flen := BitVec.ofNat 9 (n + 7) } := rfl

/-- The frame build changes `TXBUF`, the engine and `FLEN` only (R90). -/
theorem State.buildFrame_frame (s : State) (n : Nat) (payload : List Byte) :
    s.buildFrame n payload =
      { s with
        txbuf := (s.buildFrame n payload).txbuf, eng := (s.buildFrame n payload).eng
        flen := BitVec.ofNat 9 (n + 7) } := by
  dsimp only [State.buildFrame, State.writeBytes, State.setMem, State.crcRun]

theorem State.readBytes_writeFrameBody (s : State) {n : Nat} {payload : List Byte} (hp : payload.length = n + 1) :
    (s.writeFrameBody n payload).readBytes .txbuf 0 (4 + n) =
      [Config.startMark, Config.cmdReadProcess, BitVec.ofNat 8 n] ++ payload := by
  rw [show 4 + n = 3 + (n + 1) by omega, State.readBytes_add, State.writeFrameBody,
    State.readBytes_writeBytes_of_disjoint _ _ _ (.inl (by omega)), ← hp]
  exact congrArg₂ _ (State.readBytes_writeBytes_same ..) (State.readBytes_writeBytes_same ..)

/-- The checksum the frame build computes covers command, length byte and payload (R63, R92). -/
theorem State.crc_writeFrameBody (s : State) {n : Nat} {payload : List Byte} (hn : n ≤ 248)
    (hp : payload.length = n + 1) :
    ((s.writeFrameBody n payload).crcRun .txbuf 1 (3 + n)).eng.crc =
      crc16 (Config.cmdReadProcess :: BitVec.ofNat 8 n :: payload) := by
  have hbody := s.readBytes_writeFrameBody hp
  rw [show 4 + n = (3 + n) + 1 by omega, State.readBytes_succ] at hbody
  rw [State.crcRun_crc _ _ (by omega) (by omega), State.crcRange, show 3 + n - 1 + 1 = 3 + n by omega]
  exact congrArg crc16 (List.cons.inj hbody).2

/-- The frame of a payload of `n + 1` bytes stands in `TXBUF` from index 0 after the build (R61, R90). -/
theorem State.readBytes_buildFrame (s : State) {n : Nat} {payload : List Byte} (hn : n ≤ 248)
    (hp : payload.length = n + 1) :
    (s.buildFrame n payload).readBytes .txbuf 0 (n + 7) = frameOf payload := by
  let u := (s.writeFrameBody n payload).crcRun .txbuf 1 (3 + n)
  have hread : (s.buildFrame n payload).readBytes .txbuf 0 (n + 7) =
      (u.writeBytes .txbuf (4 + n) (frameTrailer u.eng.crc)).readBytes .txbuf 0 ((4 + n) + 3) := by
    rw [State.buildFrame_eq, show (4 + n) + 3 = n + 7 by omega]; rfl
  have hbody : (u.writeBytes .txbuf (4 + n) (frameTrailer u.eng.crc)).readBytes .txbuf 0 (4 + n) =
      [Config.startMark, Config.cmdReadProcess, BitVec.ofNat 8 n] ++ payload := by
    rw [State.readBytes_writeBytes_of_disjoint _ _ _ (.inl (by omega)), State.readBytes_crcRun,
      State.readBytes_writeFrameBody s hp]
  have htrailer : (u.writeBytes .txbuf (4 + n) (frameTrailer u.eng.crc)).readBytes .txbuf (0 + (4 + n)) 3 =
      frameTrailer u.eng.crc := by
    rw [Nat.zero_add]; exact State.readBytes_writeBytes_same u .txbuf (4 + n) (frameTrailer u.eng.crc)
  rw [hread, State.readBytes_add, hbody, htrailer, State.crc_writeFrameBody s hn hp]
  simp [frameOf, frameTrailer, hp]

theorem State.flen_buildFrame (s : State) {n : Nat} (payload : List Byte) (hn : n ≤ 248) :
    (s.buildFrame n payload).flen.toNat = n + 7 := toNat_ofNat_nine (by omega)

theorem State.phase_buildFrame (s : State) {n : Nat} (payload : List Byte) (hn : n ≤ 248) :
    (s.buildFrame n payload).eng.phase = .off := Engine.run_phase _ (by omega) (by omega)

theorem State.MemoryInv.writeBytes {s : State} {b : BufId} {i : Nat} {vs : List Byte} (h : s.MemoryInv)
    (hi : i + vs.length ≤ b.cap) : (s.writeBytes b i vs).MemoryInv := by
  obtain ⟨hpbuf, htxbuf, hrxbuf⟩ := h
  cases b with
  | pbuf => exact ⟨Memory.wf_insertList vs hpbuf hi, htxbuf, hrxbuf⟩
  | txbuf => exact ⟨hpbuf, Memory.wf_insertList vs htxbuf hi, hrxbuf⟩
  | rxbuf => exact ⟨hpbuf, htxbuf, Memory.wf_insertList vs hrxbuf hi⟩

/-- The frame build writes inside `TXBUF` (R90, R91). -/
theorem State.MemoryInv.buildFrame {s : State} {n : Nat} {payload : List Byte} (h : s.MemoryInv) (hn : n ≤ 248)
    (hp : payload.length = n + 1) : (s.buildFrame n payload).MemoryInv := by
  have hcap : BufId.txbuf.cap = 255 := rfl
  have hbody : (s.writeFrameBody n payload).MemoryInv :=
    State.MemoryInv.writeBytes (State.MemoryInv.writeBytes h (Nat.le_of_ble_eq_true rfl)) (by omega)
  exact State.MemoryInv.writeBytes (s := (s.writeFrameBody n payload).crcRun .txbuf 1 (3 + n)) hbody
    (by simp only [List.length_cons, List.length_nil]; omega)

end Machine
end Sys2Proof
end

section
/-! What an operation, the gate and the word of a command can do, each said once as an equation or an inversion lemma. -/

namespace Sys2Proof

/-! ### The command word: 30_encoding.md R66, R71 -/

theorem BufSel.toBits_ofBits (v : BitVec 2) : (BufSel.ofBits v).toBits = v := by revert v; decide

/-- A byte is its three fields. -/
theorem fields_append (w : Byte) : reservedField w ++ bufField w ++ opField w = w := by
  simp only [reservedField, bufField, opField]
  rw [BitVec.extractLsb'_append_extractLsb'_eq_extractLsb' (by decide),
    BitVec.extractLsb'_append_extractLsb'_eq_extractLsb' (by decide)]
  exact BitVec.extractLsb'_eq_self

/-- A byte that decodes is the word of what it decodes to (R71). -/
theorem encode_of_decode {w : Byte} {i : Instr} (h : decode w = .ok i) : encode i = w := by
  have hop (k : BitVec 3) (hk : (opField w).toNat = k.toNat) : opField w = k := BitVec.eq_of_toNat_eq hk
  have hword (hres : reservedField w = 0) (hbuf : i.buf = BufSel.ofBits (bufField w)) (hk : i.opBits = opField w) :
      encode i = w := by
    rw [encode, hbuf, BufSel.toBits_ofBits, hk]
    exact (congrArg (· ++ bufField w ++ opField w) hres.symm).trans (fields_append w)
  unfold decode at h
  split at h
  · cases h
  · rename_i hres
    have hres := not_not.mp hres
    split at h
    case h_1 hk => cases h; exact hword hres rfl (hop 1 hk).symm
    case h_2 hk => cases h; exact hword hres rfl (hop 2 hk).symm
    case h_3 hk => cases h; exact hword hres rfl (hop 3 hk).symm
    case h_4 hk => cases h; exact hword hres rfl (hop 4 hk).symm
    case h_5 hk => cases h; exact hword hres rfl (hop 5 hk).symm
    case h_6 => cases h

namespace Machine

/-! ### The start step of RDT: 44_poll_fsm.md R111, R112, R114 -/

/-- The machine after the clear of `RXBUF` and the frame build, where the start step of RDT meets the gate (R111). -/
def State.rdtStart (s : State) : State :=
  State.buildReadFrame { s.clearBuffer .rxbuf with rxcnt := 0, attempt := 0, timer := 0 }

/-- What the start step of RDT has changed when it meets the gate (R111). -/
theorem State.rdtStart_frame (s : State) :
    s.rdtStart =
      { s with
        rxbuf := Memory.zeros BufId.rxbuf.cap, txbuf := s.rdtStart.txbuf, eng := s.rdtStart.eng
        flen := 7, rxcnt := 0, attempt := 0, timer := 0 } := by
  rw [State.rdtStart, State.buildReadFrame, State.buildFrame_frame]
  dsimp only [State.clearBuffer, State.setMem]
  rfl

theorem State.readByte_rxbuf_rdtStart (s : State) {i : Nat} (h : i < BufId.rxbuf.cap) :
    s.rdtStart.readByte .rxbuf i = 0 := by
  rw [State.rdtStart_frame]
  simp only [State.readByte, State.mem, Memory.find?_zeros, h, if_true, Option.getD_some]
  rfl

/-- The frame of the one-byte payload is the read frame (41_frame_encoder.md R94). -/
theorem frameOf_readPayload : frameOf [Config.readPayload] = readFrame := by decide +kernel

theorem State.readBytes_txbuf_rdtStart (s : State) : s.rdtStart.readBytes .txbuf 0 7 = readFrame :=
  (State.readBytes_buildFrame _ (Nat.zero_le 248) rfl).trans frameOf_readPayload

/-- The gate of the start step with attempts left and no marker: the first transmission (R114, R115). -/
theorem State.gate_start_unmarked {s : State} (h : s.readByte .rxbuf 1 ≠ Config.confirm) (ha : s.attempt.toNat < 4) :
    s.gate true = s.enterSending := by
  unfold State.gate State.confirmed
  rw [if_pos h]
  simp only [Bool.false_eq_true, if_false, if_true, Config.maxAttempts, ha]

/-- The start step of RDT always transmits: the cleared `RXBUF` holds no marker, and the frame has a length (R112). -/
theorem execRdt_eq (sel : BufSel) (s : State) : execRdt sel s = .next s.rdtStart.enterSending := by
  have hmark : s.rdtStart.readByte .rxbuf 1 ≠ Config.confirm := by
    rw [State.readByte_rxbuf_rdtStart s (by decide)]; decide
  have hflen : s.rdtStart.flen ≠ 0 := by rw [State.rdtStart_frame]; exact (by decide : (7 : BitVec 9) ≠ 0)
  have hattempt : s.rdtStart.attempt.toNat < 4 := by rw [State.rdtStart_frame]; exact Nat.zero_lt_succ 3
  calc execRdt sel s = .next (s.rdtStart.gate true) := by
        rw [execRdt, ← State.rdtStart, if_neg hflen]
    _ = .next s.rdtStart.enterSending := by rw [State.gate_start_unmarked hmark hattempt]

/-! ### The bodies of the operations: 45_host_port.md R135 -/

/-- Every operation raises an operand error, having cleared at most `VALID` or `FLEN`, or does its work on operands in
range and completes, or as RDT posts the first transmission. -/
theorem exec_cases {i : Instr} {s t : State} (h : exec i s = .next t) :
    (∃ v n e, (n = s.flen ∨ n = 0) ∧ (e = .badOperand ∨ e = .emptyRange ∨ e = .frameTooLarge) ∧
      t = State.raise { s with valid := v, flen := n } e .none) ∨
    (∃ sel b first last, i = .crc sel ∧ first ≤ last ∧ last < b.cap ∧ t = (s.crcRun b first last).complete) ∨
    (∃ sel n, i = .enc sel ∧ n ≤ 248 ∧ t = (s.buildFrame n (s.readBytes .pbuf 0 (n + 1))).complete) ∨
    (∃ sel b ti, i = .val sel ∧ 3 ≤ ti ∧ ti < b.cap ∧ t = (State.validate { s with valid := false } b ti).complete) ∨
    (∃ sel b o, i = .dec sel ∧ t = State.complete { s with reading := s.f32Bits b o s.wireBE }) ∨
    (∃ sel, i = .rdt sel ∧ t = s.rdtStart.enterSending) := by
  cases i with
  | crc sel =>
    simp only [exec, execCrc] at h
    split at h <;> cases h
    next e he =>
      have he : e = .badOperand ∨ e = .emptyRange ∨ e = .frameTooLarge := by
        rcases crcOperands_error he with rfl | rfl <;> simp
      exact .inl ⟨s.valid, s.flen, e, .inl rfl, he, rfl⟩
    next b first last hok =>
      obtain ⟨-, -, -, hle, hcap⟩ := crcOperands_ok hok
      exact .inr (.inl ⟨sel, b, first, last, rfl, hle, hcap, rfl⟩)
  | enc sel =>
    simp only [exec, execEnc] at h
    split at h <;> cases h
    next e he => exact .inl ⟨s.valid, 0, e, .inr rfl, .inr (.inr (encOperand_error he)), rfl⟩
    next n hok =>
      obtain ⟨-, hn⟩ := encOperand_ok hok
      exact .inr (.inr (.inl ⟨sel, n, rfl, by omega, rfl⟩))
  | val sel =>
    simp only [exec, execVal] at h
    split at h <;> cases h
    next e he => exact .inl ⟨false, s.flen, e, .inl rfl, .inl (valOperands_error he), rfl⟩
    next b ti hok =>
      obtain ⟨-, -, hlow, hcap⟩ := valOperands_ok hok
      exact .inr (.inr (.inr (.inl ⟨sel, b, ti, rfl, hlow, hcap, rfl⟩)))
  | dec sel =>
    simp only [exec, execDec] at h
    split at h <;> cases h
    next e he => exact .inl ⟨s.valid, s.flen, e, .inl rfl, .inl (decOperands_error he), rfl⟩
    next b o hok => exact .inr (.inr (.inr (.inr (.inl ⟨sel, b, o, rfl, rfl⟩))))
  | rdt sel =>
    simp only [exec, execRdt_eq] at h
    cases h
    exact .inr (.inr (.inr (.inr (.inr ⟨sel, rfl, rfl⟩))))

/-- A comparison changes the engine, the diagnostic registers and `VALID` only (42_frame_validator.md R100). -/
theorem State.validate_frame (s : State) (b : BufId) (ti : Nat) :
    s.validate b ti =
      { s with
        eng := (s.validate b ti).eng, diagCalc := (s.validate b ti).diagCalc
        diagRecv := (s.validate b ti).diagRecv, valid := (s.validate b ti).valid } := by
  dsimp only [State.validate, State.crcRun]

/-! ### The gate after a `Receive`: 44_poll_fsm.md R114, R123, R124, R128 -/

/-- The gate after a `Receive` confirms, retries or gives up, on the state as it is or as the strict check leaves it. -/
theorem State.gate_cases (s : State) :
    ∃ u, (u = s ∨ u = s.strictCheck) ∧
      (s.gate false = u.enterConfirmed ∨
        (s.attempt.toNat < 4 ∧ s.gate false = { u with pstate := .retrying }) ∨
        (4 ≤ s.attempt.toNat ∧ s.gate false = u.enterExhausted)) := by
  by_cases hm : s.readByte .rxbuf 1 = Config.confirm
  · cases hs : s.strict with
    | false => exact ⟨s, .inl rfl, .inl (State.gate_marked s false hm hs)⟩
    | true =>
      refine ⟨s.strictCheck, .inr rfl, ?_⟩
      rw [State.gate_strict s hm hs, show s.strictCheck.attempt = s.attempt from State.validate_attempt ..]
      split
      · exact .inl rfl
      · split
        next ha => exact .inr (.inl ⟨ha, rfl⟩)
        next ha => exact .inr (.inr ⟨Nat.le_of_not_lt ha, rfl⟩)
  · refine ⟨s, .inl rfl, .inr ?_⟩
    rw [State.gate_unmarked s hm, State.enterExhausted, if_neg hm]
    split
    next ha => exact .inl ⟨ha, rfl⟩
    next ha => exact .inr ⟨Nat.le_of_not_lt ha, rfl⟩

end Machine
end Sys2Proof
end

section
/-! The invariant of the machine (Sys2Proof/Safety.lean): what it says of an idle machine, of the body of an operation and
of a running read, and that every event keeps it. -/

namespace Sys2Proof
namespace Machine

/-! ### Three forms of the invariant -/

/-- The invariant inside the body of an operation that is about to end (R135): no read is in flight, no error is set; the
flags `BUSY` and `DONE` are left open. -/
structure State.BodyInv (s : State) : Prop where
  ended : s.pstate.running = false
  request : s.xreq = .none
  timer : s.timer = 0
  range : s.RangeInv
  code : s.errCode = .none
  cause : s.errCause = .none
  memory : s.MemoryInv

/-- The invariant of a running read but for `PSTATE`, `XREQ`, `TIMER` and `ATTEMPT`, which each transition moves. -/
structure State.ReadInv (s : State) : Prop where
  busy : s.busy = true
  done : s.done = false
  code : s.errCode = .none
  cause : s.errCause = .none
  flen : s.flen = 7
  rxcnt : s.rxcnt.toNat ≤ 280
  rest : s.eng.phase = .off
  memory : s.MemoryInv
  frame : s.readBytes .txbuf 0 7 = readFrame

/-- With no read in flight, no request and no settle wait is left (R27, R33). -/
theorem State.HandshakeInv.of_ended {s : State} (h : s.HandshakeInv) (hp : s.pstate.running = false) :
    s.xreq = .none ∧ s.timer = 0 := by
  obtain ⟨-, -, -, hnone, htimer⟩ := h
  have hs : s.pstate ≠ .sending := fun h => by rw [h] at hp; cases hp
  have ha : s.pstate ≠ .awaitingResponse := fun h => by rw [h] at hp; cases hp
  exact ⟨hnone hs ha, by_contra fun ht => ha (htimer ht).1⟩

/-- A start takes an idle machine of the invariant into the body of an operation (R135). -/
theorem State.Inv.accept {s : State} (h : s.Inv) (hb : s.busy = false) (w : Byte) : (s.accept w).BodyInv := by
  obtain ⟨⟨-, hrun⟩, hhand, hrange, -, hmem, -⟩ := h
  obtain ⟨hx, ht⟩ := hhand.of_ended (hrun.symm.trans hb)
  exact ⟨hrun.symm.trans hb, hx, ht, hrange, rfl, rfl, hmem⟩

/-- The invariant of a machine with `BUSY` = 0. -/
theorem State.inv_of_idle {s : State} (hb : s.busy = false) (hp : s.pstate.running = false) (hx : s.xreq = .none)
    (ht : s.timer = 0) (hrange : s.RangeInv) (hcause : s.errCause ≠ .none ↔ s.errCode = .badResponse)
    (hcode : s.errCode ≠ .messageGenerationFailed) (hmem : s.MemoryInv) : s.Inv := by
  have hbusy {p : Prop} (h : s.busy = true) : p := by rw [hb] at h; cases h
  have hhand : s.HandshakeInv :=
    ⟨fun h => (by rw [h] at hp; cases hp), fun _ => .inl hx, fun _ => ht, fun _ _ => hx, fun h => absurd ht h⟩
  exact ⟨⟨fun h => hbusy h.1, hb.trans hp.symm⟩, hhand, hrange, ⟨hbusy, hcause, hcode⟩, hmem, hbusy⟩

theorem State.BodyInv.complete {s : State} (h : s.BodyInv) : s.complete.Inv :=
  State.inv_of_idle rfl h.ended h.request h.timer h.range (by simp [h.code, h.cause]) (by simp [h.code]) h.memory

/-- An error that carries a cause exactly with `BadResponse` (R141) ends an operation in a state of the invariant. -/
theorem State.BodyInv.raise {s : State} (h : s.BodyInv) {e : ErrCode} {c : ErrCause}
    (he : e ≠ .messageGenerationFailed) (hc : e = .badResponse → c ≠ .none) : (s.raise e c).Inv := by
  refine State.inv_of_idle rfl h.ended rfl h.timer h.range ?_ he h.memory
  by_cases hbad : e = .badResponse
  · simp [hbad, hc hbad]
  · simp [hbad]

theorem State.Inv.readInv {s : State} (h : s.Inv) (hp : s.pstate.running = true) : s.ReadInv := by
  obtain ⟨⟨hflags, hrun⟩, -, ⟨-, -, hrxcnt, hrest⟩, ⟨hcode, hcause, -⟩, hmem, hframe⟩ := h
  have hb : s.busy = true := hrun.trans hp
  have hc : s.errCode = .none := hcode hb
  have hdone : s.done = false := Bool.eq_false_iff.mpr fun hd => hflags ⟨hb, hd⟩
  have hnone : s.errCause = .none := by_contra fun hne => by rw [hcause.mp hne] at hc; cases hc
  exact ⟨hb, hdone, hc, hnone, (hframe hb).1, hrxcnt, hrest, hmem, (hframe hb).2⟩

/-- A running read with its handshake and its attempts in range is in the invariant. -/
theorem State.ReadInv.inv {s : State} (h : s.ReadInv) (hp : s.pstate.running = true) (hhand : s.HandshakeInv)
    (ha : attemptAllowed s.pstate s.attempt.toNat = true) : s.Inv := by
  have hflags : s.FlagsInv := ⟨fun hd => Bool.false_ne_true (h.done.symm.trans hd.2), h.busy.trans hp.symm⟩
  have hflen : s.flen = 0 ∨ (7 ≤ s.flen.toNat ∧ s.flen.toNat ≤ 255) := by rw [h.flen]; exact .inr (by decide)
  have herror : s.ErrorInv := ⟨fun _ => h.code, by simp [h.code, h.cause], by simp [h.code]⟩
  exact ⟨hflags, hhand, ⟨ha, hflen, h.rxcnt, h.rest⟩, herror, h.memory, fun _ => ⟨h.flen, h.frame⟩⟩

/-- A read that has left its running states is at the end of its body. -/
theorem State.ReadInv.bodyInv {s : State} (h : s.ReadInv) (hp : s.pstate.running = false) (hx : s.xreq = .none)
    (ht : s.timer = 0) (ha : attemptAllowed s.pstate s.attempt.toNat = true) : s.BodyInv := by
  have hflen : s.flen = 0 ∨ (7 ≤ s.flen.toNat ∧ s.flen.toNat ≤ 255) := by rw [h.flen]; exact .inr (by decide)
  exact ⟨hp, hx, ht, ⟨ha, hflen, h.rxcnt, h.rest⟩, h.code, h.cause, h.memory⟩

/-! ### The bodies of the operations -/

/-- A checksum run inside a buffer leaves the engine at rest (R33, R84). -/
theorem State.BodyInv.crcRun {s : State} (h : s.BodyInv) (b : BufId) {first last : Nat} (hle : first ≤ last)
    (hl : last < 512) : (s.crcRun b first last).BodyInv := by
  obtain ⟨hattempt, hflen, hrxcnt, -⟩ := h.range
  exact { h with range := ⟨hattempt, hflen, hrxcnt, Engine.run_phase _ hle hl⟩ }

theorem State.BodyInv.validate {s : State} (h : s.BodyInv) (b : BufId) {ti : Nat} (hlow : 3 ≤ ti) (hti : ti < 512) :
    (s.validate b ti).BodyInv := by
  obtain ⟨hattempt, hflen, hrxcnt, -⟩ := h.range
  have hrest : (s.validate b ti).eng.phase = .off := Engine.run_phase _ (by omega) (by omega)
  rw [State.validate_frame] at hrest ⊢
  exact ⟨h.ended, h.request, h.timer, ⟨hattempt, hflen, hrxcnt, hrest⟩, h.code, h.cause, h.memory⟩

theorem State.BodyInv.buildFrame {s : State} (h : s.BodyInv) {n : Nat} {payload : List Byte} (hn : n ≤ 248)
    (hp : payload.length = n + 1) : (s.buildFrame n payload).BodyInv := by
  obtain ⟨hattempt, -, hrxcnt, -⟩ := h.range
  have hflen : 7 ≤ (s.buildFrame n payload).flen.toNat ∧ (s.buildFrame n payload).flen.toNat ≤ 255 := by
    rw [State.flen_buildFrame s payload hn]; omega
  have hrest := State.phase_buildFrame s payload hn
  have hmem := State.MemoryInv.buildFrame h.memory hn hp
  rw [State.buildFrame_frame] at hflen hrest hmem ⊢
  exact ⟨h.ended, h.request, h.timer, ⟨hattempt, .inr hflen, hrxcnt, hrest⟩, h.code, h.cause, hmem⟩

/-- The start step of RDT turns the body of an operation into a running read (R57, R111). -/
theorem State.BodyInv.rdtStart {s : State} (h : s.BodyInv) (hb : s.busy = true) (hd : s.done = false) :
    s.rdtStart.ReadInv := by
  obtain ⟨hpbuf, htxbuf, -⟩ := h.memory
  have hframe := s.readBytes_txbuf_rdtStart
  have hrest : s.rdtStart.eng.phase = .off := State.phase_buildFrame _ _ (Nat.zero_le 248)
  have hcleared : State.MemoryInv { s.clearBuffer .rxbuf with rxcnt := 0, attempt := 0, timer := 0 } :=
    ⟨hpbuf, htxbuf, Memory.wf_zeros _⟩
  have hmem : s.rdtStart.MemoryInv := State.MemoryInv.buildFrame hcleared (Nat.zero_le 248) rfl
  rw [State.rdtStart_frame] at hframe hrest hmem ⊢
  exact ⟨hb, hd, h.code, h.cause, rfl, Nat.zero_le 280, hrest, hmem, hframe⟩

/-! ### The transitions of a read: 44_poll_fsm.md R115 to R125 -/

/-- A transmission of the frame, the first or a repeated one, enters `Sending` (R115, R122). -/
theorem State.ReadInv.enterSending {s : State} (h : s.ReadInv) (ht : s.timer = 0) (ha : s.attempt.toNat < 4) :
    s.enterSending.Inv :=
  State.ReadInv.inv { h with } rfl ⟨fun _ => rfl, fun hp => (nomatch hp), fun hx => (nomatch hx), fun hp => absurd rfl hp,
    fun hne => absurd ht hne⟩ (decide_eq_true ha)

theorem State.ReadInv.enterTransportError {s : State} (h : s.ReadInv) (hx : s.xreq = .none) (ha : s.attempt.toNat < 4)
    {c : ErrCause} (hc : c ≠ .none) : (s.enterTransportError c).Inv := by
  have hread : State.ReadInv { s with pstate := .transportError, timer := 0 } := { h with }
  have hbody := hread.bodyInv rfl hx rfl (decide_eq_true (Nat.le_of_lt_succ ha))
  exact hbody.raise (by decide) fun _ => hc

/-- The strict check reads the trailer index from one byte, so its range is inside `RXBUF` (R128). -/
theorem State.ReadInv.strictCheck {s : State} (h : s.ReadInv) : s.strictCheck.ReadInv := by
  have hbyte := (s.readByte .rxbuf 2).isLt
  have hrest : s.strictCheck.eng.phase = .off := Engine.run_phase _ (by omega) (by omega)
  rw [State.strictCheck, State.validate_frame] at hrest ⊢
  exact ⟨h.busy, h.done, h.code, h.cause, h.flen, h.rxcnt, hrest, h.memory, h.frame⟩

/-- The gate after a `Receive` keeps the invariant on each of its three ways (R114, R123, R124). -/
theorem State.ReadInv.gate {s : State} (h : s.ReadInv) (hp : s.pstate = .awaitingResponse) (hx : s.xreq = .none)
    (ht : s.timer = 0) (hlow : 1 ≤ s.attempt.toNat) (hhigh : s.attempt.toNat ≤ 4) : (s.gate false).Inv := by
  obtain ⟨u, hu, hgate⟩ := s.gate_cases
  have hread : u.ReadInv := by
    rcases hu with rfl | rfl
    · exact h
    · exact h.strictCheck
  have hkept : u.xreq = s.xreq ∧ u.timer = s.timer ∧ u.attempt = s.attempt := by
    rcases hu with rfl | rfl <;> simp [State.strictCheck]
  obtain ⟨hux, hut, hua⟩ := hkept
  rw [← hux] at hx
  rw [← hut] at ht
  rw [← hua] at hlow hhigh hgate
  rcases hgate with hg | ⟨hlt, hg⟩ | ⟨hge, hg⟩ <;> rw [hg]
  · have hconf : State.ReadInv { u with
        pstate := .confirmed, reading := u.f32Bits .rxbuf Config.floatOffset u.wireBE } := { hread with }
    exact (hconf.bodyInv rfl hx ht (decide_eq_true ⟨hlow, hhigh⟩)).complete
  · have hretry : State.ReadInv { u with pstate := .retrying } := { hread with }
    exact hretry.inv rfl ⟨fun h => (nomatch h), fun h => (nomatch h), fun _ => ht, fun _ _ => hx, fun hne => absurd ht hne⟩
      (decide_eq_true ⟨hlow, Nat.le_of_lt_succ hlt⟩)
  · have hexh : State.ReadInv { u with pstate := .exhausted } := { hread with }
    have hbody := hexh.bodyInv rfl hx ht (decide_eq_true (Nat.le_antisymm hhigh hge))
    exact hbody.raise (by decide) fun _ => by split <;> decide

/-! ### The invariant is kept -/

theorem State.Inv.exec {s t : State} (h : s.Inv) (hb : s.busy = false) {w : Byte} {i : Instr}
    (hstep : exec i (s.accept w) = .next t) : t.Inv := by
  have hbody := h.accept hb w
  rcases exec_cases hstep with ⟨v, n, e, hn, he, rfl⟩ | ⟨-, b, first, last, -, hle, hcap, rfl⟩ | ⟨-, n, -, hn, rfl⟩ |
    ⟨-, b, ti, -, hlow, hcap, rfl⟩ | ⟨-, b, o, -, rfl⟩ | ⟨-, -, rfl⟩
  · obtain ⟨hattempt, hflen, hrxcnt, hrest⟩ := hbody.range
    have hrange : State.RangeInv { s.accept w with valid := v, flen := n } := by
      refine ⟨hattempt, ?_, hrxcnt, hrest⟩
      rcases hn with rfl | rfl
      · exact hflen
      · exact .inl rfl
    have herr : e ≠ .messageGenerationFailed ∧ e ≠ .badResponse := by rcases he with rfl | rfl | rfl <;> decide
    have hcleared : State.BodyInv { s.accept w with valid := v, flen := n } := { hbody with range := hrange }
    exact hcleared.raise herr.1 fun hbad => absurd hbad herr.2
  · exact (hbody.crcRun b hle (by have := b.cap_le; omega)).complete
  · exact (hbody.buildFrame hn (by simp)).complete
  · have hcleared : State.BodyInv { s.accept w with valid := false } := { hbody with }
    exact (hcleared.validate b hlow (by have := b.cap_le; omega)).complete
  · have hread : State.BodyInv { s.accept w with reading := (s.accept w).f32Bits b o (s.accept w).wireBE } :=
      { hbody with }
    exact hread.complete
  · have hread := hbody.rdtStart rfl rfl
    exact hread.enterSending (by rw [State.rdtStart_frame]) (by rw [State.rdtStart_frame]; exact Nat.zero_lt_succ 3)

theorem State.Inv.writeByte {s : State} (h : s.Inv) (hb : s.busy = false) {b : BufId} {i : Nat} (v : Byte)
    (hi : i < b.cap) : (s.writeByte b i v).Inv := by
  obtain ⟨hflags, hhand, hrange, herror, ⟨hpbuf, htxbuf, hrxbuf⟩, -⟩ := h
  have hframe (t : State) (hbt : t.busy = s.busy) : t.FrameInv := fun hb' => by rw [hbt, hb] at hb'; cases hb'
  cases b with
  | pbuf => exact ⟨hflags, hhand, hrange, herror, ⟨Memory.wf_insert v hpbuf hi, htxbuf, hrxbuf⟩, hframe _ rfl⟩
  | txbuf => exact ⟨hflags, hhand, hrange, herror, ⟨hpbuf, Memory.wf_insert v htxbuf hi, hrxbuf⟩, hframe _ rfl⟩
  | rxbuf => exact ⟨hflags, hhand, hrange, herror, ⟨hpbuf, htxbuf, Memory.wf_insert v hrxbuf hi⟩, hframe _ rfl⟩

/-- The invariant does not speak of the host's own registers. -/
theorem State.Inv.writeRegister {s : State} (h : s.Inv) (r : HostReg) (v : BitVec r.width) :
    (s.writeRegister r v).Inv := by
  cases r <;> exact h

theorem State.Inv.hostTransaction {s t : State} (h : s.Inv) {x : HostTxn} (hstep : hostTransaction x s = .next t) :
    t.Inv := by
  rcases hostTransaction_cases hstep with ⟨o, rfl, -⟩ | ⟨b, i, v, hb, hi, -, rfl⟩ | ⟨r, v, -, -, rfl⟩ |
    ⟨w, i, hb, -, -, hexec⟩ | ⟨w, hb, -, rfl⟩
  · exact h
  · exact h.writeByte hb v hi
  · exact h.writeRegister r v
  · exact h.exec hb hexec
  · exact (h.accept hb w).raise (by decide) fun hbad => nomatch hbad

theorem State.Inv.sequencerStep {s : State} (h : s.Inv) : s.sequencerStep.Inv := by
  rcases s.sequencerStep_cases with hs | ⟨-, hp, -, ht, hs⟩ | ⟨-, hp, hs⟩ <;> rw [hs]
  · exact h
  · have hread := h.readInv (by rw [hp]; rfl)
    obtain ⟨-, -, ⟨ha, -⟩, -⟩ := h
    have hpost : s.postReceive.ReadInv := { hread with }
    exact hpost.inv (by rw [show s.postReceive.pstate = s.pstate from rfl, hp]; rfl)
      ⟨fun hs => (nomatch hp.symm.trans hs), fun _ => .inr rfl, fun _ => ht,
        fun _ hne => absurd hp hne, fun hne => absurd ht hne⟩ ha
  · have hread := h.readInv (by rw [hp]; rfl)
    obtain ⟨-, ⟨-, -, -, -, htimer⟩, ⟨ha, -⟩, -⟩ := h
    rw [hp] at ha htimer
    have ht : s.timer = 0 := by_contra fun hne => nomatch (htimer hne).1
    exact hread.enterSending ht (Nat.lt_succ_of_le (of_decide_eq_true ha).2)

theorem State.Inv.tick {s : State} (h : s.Inv) (hp : s.pstate = .awaitingResponse) (hx : s.xreq = .none) :
    State.Inv { s with timer := s.timer - 1 } := by
  have hread := h.readInv (by rw [hp]; rfl)
  obtain ⟨-, -, ⟨ha, -⟩, -⟩ := h
  have hticked : State.ReadInv { s with timer := s.timer - 1 } := { hread with }
  exact hticked.inv (by rw [hp]; rfl) ⟨fun hs => (nomatch hp.symm.trans hs), fun _ => .inl hx,
    fun hr => (nomatch hx.symm.trans hr), fun _ hne => absurd hp hne, fun _ => ⟨hp, hx⟩⟩ ha

theorem State.Inv.transmitOk {s : State} (h : s.Inv) (hp : s.pstate = .sending) :
    State.Inv { s with xreq := .none, timer := s.settle, pstate := .awaitingResponse } := by
  have hread := h.readInv (by rw [hp]; rfl)
  obtain ⟨-, -, ⟨ha, -⟩, -⟩ := h
  rw [hp] at ha
  have hwait : State.ReadInv { s with xreq := .none, timer := s.settle, pstate := .awaitingResponse } := { hread with }
  exact hwait.inv rfl ⟨fun hs => (nomatch hs), fun _ => .inl rfl, fun hr => (nomatch hr), fun _ hne => absurd rfl hne,
    fun _ => ⟨rfl, rfl⟩⟩ ha

/-- While a request may be outstanding, fewer than four attempts have ended (R22). -/
theorem State.Inv.attempt_lt {s : State} (h : s.Inv) (hp : s.pstate = .sending ∨ s.pstate = .awaitingResponse) :
    s.attempt.toNat < 4 := by
  obtain ⟨-, -, ⟨ha, -⟩, -⟩ := h
  rcases hp with hp | hp <;> rw [hp] at ha <;> exact of_decide_eq_true ha

/-- An `Err` answer of the transport ends the read with its cause (R117, R121, R125). -/
theorem State.Inv.transportError {s : State} (h : s.Inv) (hp : s.pstate = .sending ∨ s.pstate = .awaitingResponse)
    {c : ErrCause} (hc : c ≠ .none) : (State.enterTransportError { s with xreq := .none } c).Inv := by
  have hrun : s.pstate.running = true := by rcases hp with hp | hp <;> rw [hp] <;> rfl
  have hread : State.ReadInv { s with xreq := .none } := { h.readInv hrun with }
  exact hread.enterTransportError rfl (h.attempt_lt hp) hc

/-- The received bytes go into `RXBUF`, and the attempt they end is counted before the gate (R120). -/
theorem State.Inv.receiveOk {s : State} (h : s.Inv) (hp : s.pstate = .awaitingResponse) (hx : s.xreq = .rx)
    {bytes : List Byte} (hlen : bytes.length ≤ 280) :
    (State.gate { (s.writeBytes .rxbuf 0 bytes) with
      rxcnt := BitVec.ofNat 9 bytes.length, attempt := s.attempt + 1, xreq := .none } false).Inv := by
  have hread := h.readInv (by rw [hp]; rfl)
  have hlt := h.attempt_lt (.inr hp)
  have hattempt : (s.attempt + 1).toNat = s.attempt.toNat + 1 := by bv_omega
  obtain ⟨-, ⟨-, -, htimer, -⟩, -⟩ := h
  have hmem : (s.writeBytes .rxbuf 0 bytes).MemoryInv :=
    State.MemoryInv.writeBytes hread.memory (by rw [Nat.zero_add]; exact hlen)
  have hcnt : (BitVec.ofNat 9 bytes.length).toNat ≤ 280 := by rw [toNat_ofNat_nine (by omega)]; exact hlen
  have hreceived : State.ReadInv { (s.writeBytes .rxbuf 0 bytes) with
      rxcnt := BitVec.ofNat 9 bytes.length, attempt := s.attempt + 1, xreq := .none } :=
    ⟨hread.busy, hread.done, hread.code, hread.cause, hread.flen, hcnt, hread.rest, hmem, hread.frame⟩
  exact hreceived.gate hp rfl (htimer hx) (by simp only [hattempt]; omega) (by simp only [hattempt]; omega)

theorem State.inv_reset : State.reset.Inv :=
  State.inv_of_idle rfl rfl rfl rfl ⟨rfl, .inl rfl, Nat.zero_le 280, rfl⟩ (by decide) (by decide) ⟨rfl, rfl, rfl⟩

/-- Reset leads into the invariant from every state (R160). -/
theorem State.inv_resetEvent (s : State) : s.resetEvent.Inv := by
  obtain ⟨hflags, hhand, hrange, herror, hmem, -⟩ := State.inv_reset
  exact ⟨hflags, hhand, hrange, herror, hmem, fun hb => nomatch hb⟩

/-- Every event that goes on keeps the invariant: each transition of R126, and the events that change nothing. -/
theorem State.Inv.event {s t : State} (h : s.Inv) {e : Input} (hstep : event e s = .next t) : t.Inv := by
  rcases event_cases hstep with ⟨x, -, hx⟩ | ⟨-, rfl⟩ | rfl | ⟨-, hp, hx, -, rfl⟩ | ⟨-, -, hp, -, rfl⟩ | ⟨-, hp, -, rfl⟩ |
    ⟨bytes, -, hp, hx, hlen, rfl⟩ | ⟨-, hp, -, rfl⟩ | ⟨-, rfl⟩
  · exact h.hostTransaction hx
  · exact h.sequencerStep
  · exact h
  · exact h.tick hp hx
  · exact h.transmitOk hp
  · exact h.transportError (.inl hp) (by decide)
  · exact h.receiveOk hp hx hlen
  · exact h.transportError (.inr hp) (by decide)
  · exact s.inv_resetEvent

/-- Settles O42: a step is one event or one turn of the sequencer, and each keeps the invariant. -/
theorem everyStepKeepsInvariant : Obligations.EveryStepKeepsInvariant := by
  intro s t h hstep
  rcases step_cases hstep with ⟨-, rfl⟩ | ⟨e, rest, -, hevent⟩
  · exact h.sequencerStep
  · have hrest : State.Inv { s with inputs := rest } := h
    exact hrest.event hevent

/-- Settles O41: every register is at its reset value and no buffer byte is written. -/
theorem invariantHoldsAtReset : Obligations.InvariantHoldsAtReset := State.inv_reset

end Machine
end Sys2Proof
end

section
/-! Who writes what: `READING`, and the registers and the buffer that belong to the host (10_state.md R11, R14, R24 to R26,
20_memory.md R41). -/

namespace Sys2Proof
namespace Machine

/-! ### `READING` -/

theorem State.enterSending_reading (s : State) : s.enterSending.reading = s.reading := rfl

theorem State.rdtStart_reading (s : State) : s.rdtStart.reading = s.reading := by rw [State.rdtStart_frame]

/-- An operation other than DEC leaves `READING` (R14). -/
theorem exec_reading {i : Instr} {s t : State} (h : exec i s = .next t) :
    t.reading = s.reading ∨ ∃ sel, i = .dec sel := by
  rcases exec_cases h with ⟨v, n, e, -, -, rfl⟩ | ⟨-, b, first, last, -, -, -, rfl⟩ | ⟨-, n, -, -, rfl⟩ |
    ⟨-, b, ti, -, -, -, rfl⟩ | ⟨sel, b, o, hi, rfl⟩ | ⟨-, -, rfl⟩
  · exact .inl rfl
  · exact .inl rfl
  · exact .inl (by rw [State.buildFrame_frame]; rfl)
  · exact .inl (by simp)
  · exact .inr ⟨sel, hi⟩
  · exact .inl (by rw [State.enterSending_reading, State.rdtStart_reading])

theorem State.writeRegister_reading (s : State) (r : HostReg) (v : BitVec r.width) :
    (s.writeRegister r v).reading = s.reading := by cases r <;> rfl

/-- A host transaction that starts no DEC leaves `READING` (R14). -/
theorem hostTransaction_reading {x : HostTxn} {s t : State} (h : hostTransaction x s = .next t) :
    t.reading = s.reading ∨ ∃ sel, x = .wreg .cmd (encode (.dec sel)) := by
  rcases hostTransaction_cases h with ⟨o, rfl, -⟩ | ⟨b, i, v, -, -, -, rfl⟩ | ⟨r, v, -, -, rfl⟩ |
    ⟨w, i, -, rfl, hdec, hexec⟩ | ⟨w, -, -, rfl⟩
  · exact .inl rfl
  · exact .inl (State.writeByte_reading s b i v)
  · exact .inl (s.writeRegister_reading r v)
  · rcases exec_reading hexec with hsame | ⟨sel, rfl⟩
    · exact .inl hsame
    · exact .inr ⟨sel, by rw [encode_of_decode hdec]⟩
  · exact .inl rfl

theorem State.sequencerStep_reading (s : State) : s.sequencerStep.reading = s.reading := by
  rcases s.sequencerStep_cases with h | ⟨-, -, -, -, h⟩ | ⟨-, -, h⟩ <;> rw [h] <;> rfl

/-- The gate after a `Receive` writes `READING` only where it confirms (R123). -/
theorem State.gate_reading (s : State) : (s.gate false).reading = s.reading ∨ (s.gate false).pstate = .confirmed := by
  obtain ⟨u, hu, hgate⟩ := s.gate_cases
  have hkept : u.reading = s.reading := by rcases hu with rfl | rfl <;> simp [State.strictCheck]
  rcases hgate with h | ⟨-, h⟩ | ⟨-, h⟩ <;> rw [h]
  · exact .inr rfl
  · exact .inl hkept
  · exact .inl hkept

/-- Settles O44, event by event: DEC, the gate that confirms and reset are the only writers. -/
theorem readingWrittenOnlyByDecAndConfirmed : Obligations.ReadingWrittenOnlyByDecAndConfirmed := by
  intro s t hstep hne
  rcases step_cases hstep with ⟨-, rfl⟩ | ⟨e, rest, hin, hevent⟩
  · exact absurd s.sequencerStep_reading hne
  rw [hin, List.head?_cons]
  rcases event_cases hevent with ⟨x, rfl, hx⟩ | ⟨-, rfl⟩ | rfl | ⟨-, -, -, -, rfl⟩ | ⟨-, -, -, -, rfl⟩ | ⟨-, -, -, rfl⟩ |
    ⟨bytes, rfl, hp, -, -, rfl⟩ | ⟨-, -, -, rfl⟩ | ⟨rfl, -⟩
  · rcases hostTransaction_reading hx with hsame | ⟨sel, rfl⟩
    · exact absurd hsame hne
    · exact .inl ⟨sel, rfl⟩
  · exact absurd (State.sequencerStep_reading _) hne
  · exact absurd rfl hne
  · exact absurd rfl hne
  · exact absurd rfl hne
  · exact absurd rfl hne
  · rcases State.gate_reading _ with hsame | hconf
    · exact absurd hsame hne
    · exact .inr (.inl ⟨hp, hconf, bytes, rfl⟩)
  · exact absurd rfl hne
  · exact .inr (.inr rfl)

/-! ### The host's registers and `PBUF` -/

/-- What belongs to the host but for `CMD`: the operands, the configuration and `PBUF` (R11, R24, R25, R41). -/
def State.hostOwned (s : State) : BitVec 16 × BitVec 16 × BitVec 2 × BitVec 16 × Memory :=
  (s.arg0, s.arg1, s.cfg, s.settle, s.pbuf)

theorem State.enterSending_hostOwned (s : State) :
    s.enterSending.cmd = s.cmd ∧ s.enterSending.hostOwned = s.hostOwned := ⟨rfl, rfl⟩

theorem State.rdtStart_hostOwned (s : State) : s.rdtStart.cmd = s.cmd ∧ s.rdtStart.hostOwned = s.hostOwned := by
  rw [State.rdtStart_frame]
  simp only [State.hostOwned, and_self]

/-- No operation writes what belongs to the host, and none writes `CMD` after the start (R135). -/
theorem exec_hostOwned {i : Instr} {s t : State} (h : exec i s = .next t) :
    t.cmd = s.cmd ∧ t.hostOwned = s.hostOwned := by
  rcases exec_cases h with ⟨v, n, e, -, -, rfl⟩ | ⟨-, b, first, last, -, -, -, rfl⟩ | ⟨-, n, -, -, rfl⟩ |
    ⟨-, b, ti, -, -, -, rfl⟩ | ⟨-, b, o, -, rfl⟩ | ⟨-, -, rfl⟩
  · exact ⟨rfl, rfl⟩
  · exact ⟨rfl, rfl⟩
  · rw [State.buildFrame_frame]; exact ⟨rfl, rfl⟩
  · simp [State.hostOwned]
  · exact ⟨rfl, rfl⟩
  · obtain ⟨hcmd, howned⟩ := s.rdtStart_hostOwned
    rw [← hcmd, ← howned]
    exact State.enterSending_hostOwned _

theorem State.sequencerStep_hostOwned (s : State) :
    s.sequencerStep.cmd = s.cmd ∧ s.sequencerStep.hostOwned = s.hostOwned := by
  rcases s.sequencerStep_cases with h | ⟨-, -, -, -, h⟩ | ⟨-, -, h⟩ <;> rw [h] <;> exact ⟨rfl, rfl⟩

theorem State.gate_hostOwned (s : State) : (s.gate false).cmd = s.cmd ∧ (s.gate false).hostOwned = s.hostOwned := by
  obtain ⟨u, hu, hgate⟩ := s.gate_cases
  have hkept : u.cmd = s.cmd ∧ u.hostOwned = s.hostOwned := by
    rcases hu with rfl | rfl <;> simp [State.strictCheck, State.hostOwned]
  rcases hgate with h | ⟨-, h⟩ | ⟨-, h⟩ <;> rw [h] <;> exact hkept

/-- A host transaction writes what belongs to the host by a register write, a `WBUF`, or the start of an operation,
which writes `CMD` alone. -/
theorem hostTransaction_hostOwned {x : HostTxn} {s t : State} (h : hostTransaction x s = .next t) :
    (t.cmd = s.cmd ∧ t.hostOwned = s.hostOwned) ∨
    (x = .wreg .cmd t.cmd ∧ t.hostOwned = s.hostOwned) ∨
    (∃ r v, x = .wreg r v ∧ t = s.writeRegister r v) ∨
    (∃ b i v, x = .wbuf b i v ∧ t = s.writeByte b i v) := by
  rcases hostTransaction_cases h with ⟨o, rfl, -⟩ | ⟨b, i, v, -, -, hx, ht⟩ | ⟨r, v, -, hx, ht⟩ |
    ⟨w, i, -, rfl, -, hexec⟩ | ⟨w, -, rfl, rfl⟩
  · exact .inl ⟨rfl, rfl⟩
  · exact .inr (.inr (.inr ⟨b, i, v, hx, ht⟩))
  · exact .inr (.inr (.inl ⟨r, v, hx, ht⟩))
  · obtain ⟨hcmd, howned⟩ := exec_hostOwned hexec
    exact .inr (.inl ⟨by rw [hcmd]; rfl, howned⟩)
  · exact .inr (.inl ⟨rfl, rfl⟩)

/-- Every step but reset leaves what belongs to the host, or is the host's write of it. -/
theorem step_hostOwned {s t : State} (h : step s = .next t) (hreset : s.inputs.head? ≠ some .reset) :
    (t.cmd = s.cmd ∧ t.hostOwned = s.hostOwned) ∨
    (s.inputs.head? = some (.host (.wreg .cmd t.cmd)) ∧ t.hostOwned = s.hostOwned) ∨
    (∃ rest r v, s.inputs = .host (.wreg r v) :: rest ∧ t = State.writeRegister { s with inputs := rest } r v) ∨
    (∃ rest b i v, s.inputs = .host (.wbuf b i v) :: rest ∧ t = State.writeByte { s with inputs := rest } b i v) := by
  rcases step_cases h with ⟨-, rfl⟩ | ⟨e, rest, hin, hevent⟩
  · exact .inl s.sequencerStep_hostOwned
  rcases event_cases hevent with ⟨x, rfl, hx⟩ | ⟨-, rfl⟩ | rfl | ⟨-, -, -, -, rfl⟩ | ⟨-, -, -, -, rfl⟩ | ⟨-, -, -, rfl⟩ |
    ⟨bytes, rfl, -, -, -, rfl⟩ | ⟨-, -, -, rfl⟩ | ⟨rfl, -⟩
  · rcases hostTransaction_hostOwned hx with hsame | ⟨rfl, howned⟩ | ⟨r, v, rfl, ht⟩ | ⟨b, i, v, rfl, ht⟩
    · exact .inl hsame
    · exact .inr (.inl ⟨by rw [hin, List.head?_cons], howned⟩)
    · exact .inr (.inr (.inl ⟨rest, r, v, hin, ht⟩))
    · exact .inr (.inr (.inr ⟨rest, b, i, v, hin, ht⟩))
  · exact .inl (State.sequencerStep_hostOwned _)
  · exact .inl ⟨rfl, rfl⟩
  · exact .inl ⟨rfl, rfl⟩
  · exact .inl ⟨rfl, rfl⟩
  · exact .inl ⟨rfl, rfl⟩
  · exact .inl (State.gate_hostOwned _)
  · exact .inl ⟨rfl, rfl⟩
  · exact absurd (by rw [hin, List.head?_cons]) hreset

/-- Settles O45: where a step leaves what belongs to the host nothing is to show, and each write of the host names what it
writes. -/
theorem sequencerNeverWritesHostState : Obligations.SequencerNeverWritesHostState := by
  intro s t hstep hreset
  rcases step_hostOwned hstep hreset with ⟨hcmd, howned⟩ | ⟨hin, howned⟩ | ⟨rest, r, v, hin, rfl⟩ |
    ⟨rest, b, i, v, hin, rfl⟩
  · simp only [State.hostOwned, Prod.mk.injEq] at howned
    simp [hcmd, howned]
  · simp only [State.hostOwned, Prod.mk.injEq] at howned
    simp [hin, howned]
  · cases r <;> simp [State.writeRegister, hin]
  · cases b with
    | pbuf => simp [hin]
    | txbuf => simp [State.writeByte, State.setMem]
    | rxbuf => simp [State.writeByte, State.setMem]

end Machine
end Sys2Proof
end

section
/-! The register file of the host (10_state.md R11, R16, R17, R28, R39) and the events that change nothing (R20, R30,
70_reset_and_hazards.md R160, R162). -/

namespace Sys2Proof
namespace Machine

/-! ### Register images and values -/

/-- Settles O6, register by register from the reset column of R11. -/
theorem resetValues : Obligations.ResetValues := by
  refine ⟨fun r => ?_, rfl, rfl, fun b i => ?_⟩
  · cases r <;> rfl
  · cases b <;> rfl

/-- The image of two fields side by side. -/
theorem toNat_append_eq_add {m n : Nat} (x : BitVec m) (y : BitVec n) : (x ++ y).toNat = 2 ^ n * x.toNat + y.toNat := by
  rw [BitVec.toNat_append, Nat.shiftLeft_eq, Nat.mul_comm, Nat.two_pow_add_eq_or_of_lt y.isLt]

/-- Settles O8: both images put their fields side by side, and the tables are read off. -/
theorem statusAndErrorImages : Obligations.StatusAndErrorImages := by
  refine ⟨fun s => ?_, fun s => ?_, by decide, by decide, by decide⟩
  · calc s.statusWord.toNat = 2 * (2 * s.valid.toNat + s.done.toNat) + s.busy.toNat := by
          rw [State.statusWord, toNat_append_eq_add, toNat_append_eq_add]; simp
      _ = 4 * s.valid.toNat + 2 * s.done.toNat + s.busy.toNat := by ring
  · exact toNat_append_eq_add s.errCause.num s.errCode.num

/-- A write of a number other than those of `CMD`, `ARG0`, `ARG1`, `CFG` and `SETTLE` changes nothing (R28). -/
theorem State.writeRegister_of_readOnly (s : State) {r : HostReg} (v : BitVec r.width)
    (h : regNumber r ∉ [0, 1, 2, 12, 13]) : s.writeRegister r v = s := by
  cases r
  case cmd | arg0 | arg1 | cfg | settle => exact absurd (by decide) h
  all_goals rfl

/-- With `BUSY` = 0 a register write other than of `CMD` is `State.writeRegister` (R132). -/
theorem hostTransaction_wreg_idle {s : State} {r : HostReg} (v : BitVec r.width) (hb : s.busy = false) (hr : r ≠ .cmd) :
    hostTransaction (.wreg r v) s = .next (s.writeRegister r v) := by
  have hwrite : writeRegister s r v = .next (s.writeRegister r v) := by
    cases r
    case cmd => exact absurd rfl hr
    all_goals rfl
  rw [← hwrite]
  exact if_neg (by rw [hb]; exact Bool.false_ne_true)

/-- Settles O11: the register numbers of R28 are those the host port does not write. -/
theorem readOnlyAndReservedWritesIgnored : Obligations.ReadOnlyAndReservedWritesIgnored := by
  refine ⟨fun s k => ⟨rfl, rfl⟩, fun s r v rest hb hr hin => ?_⟩
  have hfixed : regNumber r ∉ [0, 1, 2, 12, 13] := by
    simp only [List.mem_cons, List.not_mem_nil, or_false] at hr ⊢
    omega
  have hcmd : r ≠ .cmd := fun h => hfixed (by rw [h]; decide)
  rw [step_cons hin]
  calc event (.host (.wreg r v)) { s with inputs := rest }
      = .next (State.writeRegister { s with inputs := rest } r v) := hostTransaction_wreg_idle v hb hcmd
    _ = .next { s with inputs := rest } := by rw [State.writeRegister_of_readOnly _ v hfixed]

/-! ### Events that change nothing -/

/-- Without `BUSY` the sequencer has no step of its own (R20). -/
theorem State.sequencerStep_idle {s : State} (h : s.busy = false) : s.sequencerStep = s := by
  simp [State.sequencerStep, h]

/-- While a request is outstanding the sequencer has no step of its own, unless in `Retrying` (R119, R122). -/
theorem State.sequencerStep_of_request {s : State} (hx : s.xreq ≠ .none) (hp : s.pstate ≠ .retrying) :
    s.sequencerStep = s := by
  simp [State.sequencerStep, hx, hp]

theorem State.tick_of_not_waiting {s : State} (h : ¬ (s.pstate = .awaitingResponse ∧ s.xreq = .none)) : s.tick = s :=
  if_neg fun ⟨hp, hx, _⟩ => h ⟨hp, hx⟩

theorem State.transmitOk_unasked {s : State} (h : s.xreq ≠ .tx) (count : Nat) : s.transmitOk count = s :=
  if_neg fun hc => h hc.2

theorem State.transmitErr_unasked {s : State} (h : s.xreq ≠ .tx) : s.transmitErr = s := if_neg fun hc => h hc.2

theorem receiveOk_unasked {s : State} (h : s.xreq ≠ .rx) (bytes : List Byte) : receiveOk bytes s = .next s :=
  if_neg fun hc => h hc.2

theorem State.receiveErr_unasked {s : State} (h : s.xreq ≠ .rx) : s.receiveErr = s := if_neg fun hc => h hc.2

/-- Where neither the sequencer nor a tick moves the machine, only the host, reset and the answer to the outstanding
request do (R118, R162). -/
theorem event_unasked {e : Input} {s : State} (hseq : s.sequencerStep = s) (htick : s.tick = s)
    (hhost : ∀ x, e ≠ .host x) (hreset : e ≠ .reset)
    (htx : s.xreq = .tx → (∀ count, e ≠ .transmitOk count) ∧ e ≠ .transmitErr)
    (hrx : s.xreq = .rx → (∀ bytes, e ≠ .receiveOk bytes) ∧ e ≠ .receiveErr) : event e s = .next s := by
  cases e with
  | host x => exact absurd rfl (hhost x)
  | sequencer => exact congrArg _ hseq
  | tick => exact congrArg _ htick
  | transmitOk count => exact congrArg _ (State.transmitOk_unasked (fun h => (htx h).1 count rfl) count)
  | transmitErr => exact congrArg _ (State.transmitErr_unasked fun h => (htx h).2 rfl)
  | receiveOk bytes => exact receiveOk_unasked (fun h => (hrx h).1 bytes rfl) bytes
  | receiveErr => exact congrArg _ (State.receiveErr_unasked fun h => (hrx h).2 rfl)
  | reset => exact absurd rfl hreset

/-- An outstanding request of the invariant is a running read's, and of the kind its state waits for (R30, R33). -/
theorem State.Inv.request {s : State} (h : s.Inv) (hx : s.xreq ≠ .none) :
    s.busy = true ∧ (s.pstate = .sending ∨ s.pstate = .awaitingResponse) := by
  obtain ⟨⟨-, hrun⟩, ⟨-, -, -, hnone, -⟩, -⟩ := h
  have hp : s.pstate = .sending ∨ s.pstate = .awaitingResponse :=
    or_iff_not_imp_left.mpr fun hs => by_contra fun ha => hx (hnone hs ha)
  exact ⟨by rw [hrun]; rcases hp with hp | hp <;> rw [hp] <;> rfl, hp⟩

/-- Settles O39: an idle machine has no request outstanding and is not in the settle wait, so every such event is
dropped. -/
theorem idleMachineIgnoresEverythingButHost : Obligations.IdleMachineIgnoresEverythingButHost := by
  intro s e rest h hb hin hhost hreset
  obtain ⟨⟨-, hrun⟩, hhand, -⟩ := h
  have hp : s.pstate.running = false := hrun.symm.trans hb
  have hx : s.xreq = .none := (hhand.of_ended hp).1
  have hwait : ¬ (s.pstate = .awaitingResponse ∧ s.xreq = .none) := fun hw => by rw [hw.1] at hp; cases hp
  rw [step_cons hin]
  exact event_unasked (State.sequencerStep_idle hb) (State.tick_of_not_waiting hwait) hhost hreset
    (fun htx => (nomatch hx.symm.trans htx)) (fun hrx => (nomatch hx.symm.trans hrx))

/-- Settles O40: with a request outstanding the sequencer and the ticks stand still, answers of the other kind are
dropped, and `BUSY` = 1 leaves the host its reads. -/
theorem outstandingRequestBlocksSequencer : Obligations.OutstandingRequestBlocksSequencer := by
  intro s h hx
  obtain ⟨hb, hp⟩ := h.request hx
  have hseq : s.sequencerStep = s :=
    State.sequencerStep_of_request hx (by rcases hp with hp | hp <;> rw [hp] <;> decide)
  refine ⟨fun hin => ?_, fun e rest hin hhost hreset htx hrx => ?_, fun x rest t hin hstep => ?_⟩
  · rw [step_nil hin, hseq]
  · have hseq : State.sequencerStep { s with inputs := rest } = { s with inputs := rest } :=
      State.sequencerStep_of_request hx (by rcases hp with hp | hp <;> simp [hp])
    have htick : State.tick { s with inputs := rest } = { s with inputs := rest } :=
      State.tick_of_not_waiting fun hw => hx hw.2
    rw [step_cons hin]
    exact event_unasked hseq htick hhost hreset htx hrx
  · rw [step_cons hin] at hstep
    have hbusy {p : Prop} (hidle : s.busy = false) : p := by rw [hb] at hidle; cases hidle
    rcases hostTransaction_cases hstep with ⟨o, rfl, -⟩ | ⟨-, -, -, hidle, -⟩ | ⟨-, -, hidle, -⟩ | ⟨-, -, hidle, -⟩ |
      ⟨-, hidle, -⟩
    · rfl
    · exact hbusy hidle
    · exact hbusy hidle
    · exact hbusy hidle
    · exact hbusy hidle

end Machine
end Sys2Proof
end

section
/-! The host's buffer indices, and what a step sends through the ports (20_memory.md R42, R57, 44_poll_fsm.md R115). -/

namespace Sys2Proof
namespace Machine

/-! ### A buffer index outside the buffer -/

theorem hostTransaction_rbuf_outside {s : State} {b : BufId} {i : Nat} (hb : s.busy = false) (hi : b.cap ≤ i) :
    hostTransaction (.rbuf b i) s = .refused .bufferIndexOutOfRange := by
  simp [hostTransaction, hb, hi]

theorem hostTransaction_wbuf_outside {s : State} {b : BufId} {i : Nat} (hb : s.busy = false) (hi : b.cap ≤ i)
    (v : Byte) : hostTransaction (.wbuf b i v) s = .refused .bufferIndexOutOfRange := by
  simp [hostTransaction, hb, hi]

/-- Settles O13: the step is the host transaction, and with `BUSY` = 0 its index decides. -/
theorem bufferIndexOutsideIsRefused : Obligations.BufferIndexOutsideIsRefused := by
  refine fun s b i rest hb hi => ⟨fun hin => ?_, fun v hin => ?_⟩
  · rw [step_cons hin]
    exact hostTransaction_rbuf_outside (s := { s with inputs := rest }) hb hi
  · rw [step_cons hin]
    exact hostTransaction_wbuf_outside (s := { s with inputs := rest }) hb hi v

/-! ### What a step sends -/

/-- From `s` to `t` at most one thing was sent, and if it was a `Transmit`, it was the read frame. -/
def State.SendsReadFrameOnly (s t : State) : Prop :=
  t.outputs = s.outputs ∨ ∃ o, t.outputs = o :: s.outputs ∧ ∀ bytes, o = .transmit bytes → bytes = readFrame

theorem State.SendsReadFrameOnly.of_transmit {s t : State} (h : t.outputs = .transmit readFrame :: s.outputs) :
    s.SendsReadFrameOnly t :=
  .inr ⟨_, h, fun _ hbytes => (Output.transmit.inj hbytes).symm⟩

theorem State.SendsReadFrameOnly.transmit_eq {s t : State} (h : s.SendsReadFrameOnly t) {bytes : List Byte}
    (hout : t.outputs = .transmit bytes :: s.outputs) : bytes = readFrame := by
  rcases h with hsame | ⟨o, hsent, hframe⟩
  · exact absurd (hout.symm.trans hsame) (List.cons_ne_self _ _)
  · exact hframe bytes (List.cons.inj (hsent.symm.trans hout)).1

/-- `Sending` posts what stands in `TXBUF[0..FLEN-1]` (R115), so the read frame where that is what was built (R57). -/
theorem State.enterSending_outputs {s : State} (hlen : s.flen = 7) (hframe : s.readBytes .txbuf 0 7 = readFrame) :
    s.enterSending.outputs = .transmit readFrame :: s.outputs := by
  have hbytes : s.readBytes .txbuf 0 s.flen.toNat = readFrame := by rw [hlen]; exact hframe
  rw [State.enterSending, State.emit_outputs, hbytes]

theorem State.rdtStart_enterSending_outputs (s : State) :
    s.rdtStart.enterSending.outputs = .transmit readFrame :: s.outputs := by
  have hlen : s.rdtStart.flen = 7 := by rw [State.rdtStart_frame]
  have hout : s.rdtStart.outputs = s.outputs := by rw [State.rdtStart_frame]
  rw [State.enterSending_outputs hlen s.readBytes_txbuf_rdtStart, hout]

/-- Of the operations only RDT sends anything, the frame it has just built (41_frame_encoder.md R94, R115). -/
theorem exec_outputs {i : Instr} {s t : State} (h : exec i s = .next t) :
    t.outputs = s.outputs ∨ t.outputs = .transmit readFrame :: s.outputs := by
  rcases exec_cases h with ⟨v, n, e, -, -, rfl⟩ | ⟨-, b, first, last, -, -, -, rfl⟩ | ⟨-, n, -, -, rfl⟩ |
    ⟨-, b, ti, -, -, -, rfl⟩ | ⟨-, b, o, -, rfl⟩ | ⟨-, -, rfl⟩
  · exact .inl rfl
  · exact .inl rfl
  · exact .inl (by rw [State.buildFrame_frame]; rfl)
  · exact .inl (by simp)
  · exact .inl rfl
  · exact .inr s.rdtStart_enterSending_outputs

theorem State.writeRegister_outputs (s : State) (r : HostReg) (v : BitVec r.width) :
    (s.writeRegister r v).outputs = s.outputs := by cases r <;> rfl

/-- The host's reads send their answer, its writes nothing, and its start of RDT the read frame. -/
theorem hostTransaction_sends {x : HostTxn} {s t : State} (h : hostTransaction x s = .next t) :
    s.SendsReadFrameOnly t := by
  rcases hostTransaction_cases h with ⟨o, rfl, ho⟩ | ⟨b, i, v, -, -, -, rfl⟩ | ⟨r, v, -, -, rfl⟩ |
    ⟨w, i, -, -, -, hexec⟩ | ⟨w, -, -, rfl⟩
  · exact .inr ⟨o, rfl, fun bytes hbytes => absurd hbytes (ho bytes)⟩
  · exact .inl (State.writeByte_outputs s b i v)
  · exact .inl (s.writeRegister_outputs r v)
  · rcases exec_outputs hexec with hsame | hsent
    · exact .inl hsame
    · exact .of_transmit hsent
  · exact .inl rfl

/-- The sequencer posts `Receive`, or in `Retrying` the frame the invariant keeps in `TXBUF` (R57, R119, R122). -/
theorem State.Inv.sequencerStep_sends {s : State} (h : s.Inv) : s.SendsReadFrameOnly s.sequencerStep := by
  rcases s.sequencerStep_cases with hs | ⟨-, -, -, -, hs⟩ | ⟨-, hp, hs⟩ <;> rw [hs]
  · exact .inl rfl
  · exact .inr ⟨.receive Config.rxMax, rfl, fun _ hbytes => nomatch hbytes⟩
  · have hread := h.readInv (by rw [hp]; rfl)
    exact .of_transmit (State.enterSending_outputs hread.flen hread.frame)

/-- The gate after a `Receive` sends nothing: a retry transmits in its own turn of the sequencer (R122). -/
theorem State.gate_outputs (s : State) : (s.gate false).outputs = s.outputs := by
  obtain ⟨u, hu, hgate⟩ := s.gate_cases
  have hkept : u.outputs = s.outputs := by rcases hu with rfl | rfl <;> simp [State.strictCheck]
  rcases hgate with h | ⟨-, h⟩ | ⟨-, h⟩ <;> rw [h] <;> exact hkept

/-- Only the host and the sequencer make the machine send: ticks, answers of the transport and reset do not. -/
theorem event_sends {s t : State} (h : s.Inv) {e : Input} (hstep : event e s = .next t) :
    s.SendsReadFrameOnly t := by
  rcases event_cases hstep with ⟨x, -, hx⟩ | ⟨-, rfl⟩ | rfl | ⟨-, -, -, -, rfl⟩ | ⟨-, -, -, -, rfl⟩ | ⟨-, -, -, rfl⟩ |
    ⟨bytes, -, -, -, -, rfl⟩ | ⟨-, -, -, rfl⟩ | ⟨-, rfl⟩
  · exact hostTransaction_sends hx
  · exact h.sequencerStep_sends
  · exact .inl rfl
  · exact .inl rfl
  · exact .inl rfl
  · exact .inl rfl
  · exact .inl (State.gate_outputs _)
  · exact .inl rfl
  · exact .inl rfl

/-- Settles O49: what a step transmits is the frame RDT has just built, or the one the invariant keeps since. -/
theorem onlyReadFrameIsTransmitted : Obligations.OnlyReadFrameIsTransmitted := by
  intro s t bytes h hstep hout
  have hsends : s.SendsReadFrameOnly t := by
    rcases step_cases hstep with ⟨-, rfl⟩ | ⟨e, rest, -, hevent⟩
    · exact h.sequencerStep_sends
    · exact event_sends (s := { s with inputs := rest }) h hevent
  exact hsends.transmit_eq hout

end Machine
end Sys2Proof
end

section
/-! The wire frame read back from the frame alone (30_encoding.md R61 to R65), and the command words in both directions,
the illegal ones among them (R66, R71, R72). -/

namespace Sys2Proof

/-! ### The three fields of an encoded word -/

theorem BufSel.ofBits_toBits (b : BufSel) : BufSel.ofBits b.toBits = b := by cases b <;> rfl

theorem opField_encode (i : Instr) : opField (encode i) = i.opBits := BitVec.extractLsb'_append_eq_right

theorem bufField_encode (i : Instr) : bufField (encode i) = i.buf.toBits := by
  rw [bufField, encode, BitVec.extractLsb'_append_eq_of_le (Nat.le_refl 3)]
  exact BitVec.extractLsb'_append_eq_right

theorem reservedField_encode (i : Instr) : reservedField (encode i) = 0 := by
  rw [reservedField, encode, BitVec.extractLsb'_append_eq_of_le (by decide)]
  exact BitVec.extractLsb'_append_eq_left

/-! ### Decoding -/

theorem decode_encode (i : Instr) : decode (encode i) = .ok i := by
  unfold decode
  rw [if_neg (not_not.mpr (reservedField_encode i)), opField_encode, bufField_encode, BufSel.ofBits_toBits]
  cases i <;> rfl

/-- The illegal words: a reserved bit is set, or `OP` is 0, 6 or 7 (R72). -/
theorem decode_error_iff (w : Byte) :
    (∃ r, decode w = .error r) ↔ opField w = 0 ∨ opField w = 6 ∨ opField w = 7 ∨ reservedField w ≠ 0 := by
  by_cases hres : reservedField w = 0
  · have hop : (∃ r, decode w = .error r) ↔ ¬ (1 ≤ (opField w).toNat ∧ (opField w).toNat ≤ 5) := by
      unfold decode
      rw [if_neg (not_not.mpr hres)]
      split
      case h_6 => exact iff_of_true ⟨_, rfl⟩ (by simp only [imp_false] at *; omega)
      all_goals exact iff_of_false (fun ⟨_, hr⟩ => nomatch hr) (by omega)
    rw [hop, hres]
    bv_omega
  · have herr : decode w = .error .reservedBits := if_pos hres
    exact iff_of_true ⟨_, herr⟩ (.inr (.inr (.inr hres)))

/-- Settles O1: the encoder's fields are those the decoder reads, and the decoder's are the whole byte. -/
theorem commandWordsDecodeAndEncodeAgree : Obligations.CommandWordsDecodeAndEncodeAgree :=
  ⟨decode_encode, fun _ _ => encode_of_decode⟩

/-- Settles O2: each of the eight words is the encoding of its operation. -/
theorem opcodeMapWordsDecode : Obligations.OpcodeMapWordsDecode :=
  ⟨decode_encode (.crc .pbuf), decode_encode (.crc .txbuf), decode_encode (.crc .rxbuf),
    decode_encode (.crc .reserved), decode_encode (.enc .txbuf), decode_encode (.val .rxbuf),
    decode_encode (.dec .txbuf), decode_encode (.rdt .reserved)⟩

namespace Machine

/-! ### The write of a command word -/

/-- With `BUSY` = 0 a write of `CMD` starts an operation (45_host_port.md R132, R135). -/
theorem hostTransaction_wreg_cmd {s : State} (hb : s.busy = false) (w : Byte) :
    hostTransaction (.wreg .cmd w) s = startOperation w s :=
  if_neg (by rw [hb]; exact Bool.false_ne_true)

/-- Settles O3: the decoder rejects by these fields, and the step is the prologue of R135 followed by `raise` (R149). -/
theorem illegalWordRaisesIllegalOp : Obligations.IllegalWordRaisesIllegalOp := by
  refine ⟨decode_error_iff, by decide +kernel, fun s w r rest hb hdec hin => ?_⟩
  rw [step_cons hin]
  calc event (.host (.wreg .cmd w)) { s with inputs := rest }
      = startOperation w { s with inputs := rest } := hostTransaction_wreg_cmd (s := { s with inputs := rest }) hb w
    _ = .next ((State.accept { s with inputs := rest } w).raise .illegalOp .none) := startOperation_error hdec _

/-! ### The wire frame -/

/-- The bytes of a frame its checksum covers: command, length byte, payload (R63). -/
def frameCovered (payload : List Byte) : List Byte :=
  Config.cmdReadProcess :: BitVec.ofNat 8 (payload.length - 1) :: payload

theorem length_frameCovered (payload : List Byte) : (frameCovered payload).length = payload.length + 2 := rfl

/-- A frame is its start marker, the covered bytes and the trailer (R61). -/
theorem frameOf_eq (payload : List Byte) :
    frameOf payload =
      Config.startMark :: (frameCovered payload ++ frameTrailer (crc16 (frameCovered payload))) := rfl

theorem length_frameOf (payload : List Byte) : (frameOf payload).length = payload.length + 6 := by
  simp [frameOf_eq, length_frameCovered, frameTrailer]

/-- The trailer follows the payload (R61). -/
theorem getElem?_frameOf_trailer (payload : List Byte) (k : Nat) :
    (frameOf payload)[payload.length + 3 + k]? = (frameTrailer (crc16 (frameCovered payload)))[k]? := by
  rw [frameOf_eq, show payload.length + 3 + k = ((frameCovered payload).length + k) + 1 by
    rw [length_frameCovered]; omega, List.getElem?_cons_succ, List.getElem?_append_right (by omega),
    Nat.add_sub_cancel_left]

/-- The third byte of a frame is its payload's length minus one (R62). -/
theorem lengthByte_frameOf {payload : List Byte} (h : payload.length ≤ 249) :
    ((frameOf payload).getD 2 0).toNat = payload.length - 1 := by
  change (BitVec.ofNat 8 (payload.length - 1)).toNat = _
  rw [BitVec.toNat_ofNat, Nat.mod_eq_of_lt (by omega)]

/-- The checksum bytes put together again, high byte first (R69). -/
theorem highByte_append_lowByte (c : Half) : highByte c ++ lowByte c = c := by
  rw [highByte, lowByte, BitVec.extractLsb'_append_extractLsb'_eq_extractLsb' (Nat.zero_add 8).symm]
  exact BitVec.extractLsb'_eq_self

/-- A reader who walks from the length byte gets the payload back (R65). -/
theorem framePayload_frameOf {payload : List Byte} (h1 : 1 ≤ payload.length) (h249 : payload.length ≤ 249) :
    framePayload (frameOf payload) = payload := by
  rw [framePayload, lengthByte_frameOf h249, Nat.sub_add_cancel h1]
  exact List.take_left

/-- The frame's length read from its third byte alone (R65). -/
theorem frameLength_frameOf {payload : List Byte} (h1 : 1 ≤ payload.length) (h249 : payload.length ≤ 249) :
    frameLength (frameOf payload) = (frameOf payload).length := by
  rw [frameLength, lengthByte_frameOf h249, length_frameOf]
  omega

/-- The trailer index read from the third byte alone (R65, R68). -/
theorem trailerIndex_frameOf {payload : List Byte} (h1 : 1 ≤ payload.length) (h249 : payload.length ≤ 249) :
    trailerIndex (frameOf payload) = payload.length + 4 := by
  rw [trailerIndex, lengthByte_frameOf h249]
  omega

/-- Settles O26: the length byte places the payload and the trailer, and what lies between the start marker and the
trailer is what the checksum covers. -/
theorem wireFrameRoundTrip : Obligations.WireFrameRoundTrip := by
  intro payload h1 h249
  have hend : (frameOf payload)[(frameOf payload).length - 1]? = some 0xAA := by
    rw [length_frameOf]; exact getElem?_frameOf_trailer payload 2
  have hcovered : ((frameOf payload).drop 1).take (payload.length + 2) = frameCovered payload := by
    exact List.take_left' (length_frameCovered payload)
  have hhigh : (frameOf payload).getD (trailerIndex (frameOf payload)) 0 = highByte (crc16 (frameCovered payload)) := by
    rw [trailerIndex_frameOf h1 h249, List.getD_eq_getElem?_getD]
    exact congrArg (·.getD 0) (getElem?_frameOf_trailer payload 1)
  have hlow : (frameOf payload).getD (trailerIndex (frameOf payload) - 1) 0 =
      lowByte (crc16 (frameCovered payload)) := by
    rw [trailerIndex_frameOf h1 h249, List.getD_eq_getElem?_getD]
    exact congrArg (·.getD 0) (getElem?_frameOf_trailer payload 0)
  refine ⟨framePayload_frameOf h1 h249, frameLength_frameOf h1 h249, rfl, rfl, rfl, hend, ?_⟩
  rw [hhigh, hlow, hcovered, highByte_append_lowByte]

end Machine
end Sys2Proof
end

section
/-! The Checksum Engine's obligations (40_crc.md R81 to R89): the micro-operations of one byte, the run over a range, the
serial register they amount to, the residue, and the operation CRC. -/

namespace Sys2Proof
namespace Machine

/-! ### The micro-operations: R81 to R84 -/

theorem Engine.shift_of_lt {g : Engine} (h : g.bitcnt.toNat < 7) :
    g.shift = { g with crc := crcBit g.crc, bitcnt := g.bitcnt + 1 } := if_pos h

theorem Engine.shift_of_last {g : Engine} (h : ¬ g.bitcnt.toNat < 7) (hend : g.idx = g.eidx) :
    g.shift = { g with crc := crcBit g.crc, phase := .off } := (if_neg h).trans (if_pos hend)

theorem Engine.shift_of_next {g : Engine} (h : ¬ g.bitcnt.toNat < 7) (hend : g.idx ≠ g.eidx) :
    g.shift = { g with crc := crcBit g.crc, idx := g.idx + 1, bitcnt := 0, phase := .absorb } :=
  (if_neg h).trans (if_neg hend)

/-- Settles O15: each micro-operation is the one its phase enables, and a shift takes one of its three branches. -/
theorem engineMicroOperations : Obligations.EngineMicroOperations := by
  refine ⟨fun b first last h hl => ?_, fun rd g hp => Engine.micro_absorb hp, fun rd g hp => ?_⟩
  · have hcap := b.cap_le
    exact ⟨rfl, toNat_ofNat_nine (by omega), toNat_ofNat_nine (by omega), rfl, rfl⟩
  · rw [Engine.micro_shift hp]
    by_cases hcount : g.bitcnt.toNat < 7
    · rw [Engine.shift_of_lt hcount]
      exact ⟨rfl, rfl, fun _ => ⟨by bv_omega, hp, rfl⟩, fun h => by omega, fun h => by omega⟩
    · by_cases hend : g.idx = g.eidx
      · rw [Engine.shift_of_last hcount hend]
        exact ⟨rfl, rfl, fun h => absurd h hcount, fun _ _ => ⟨rfl, rfl, rfl⟩, fun _ h => absurd hend h⟩
      · rw [Engine.shift_of_next hcount hend]
        exact ⟨rfl, rfl, fun h => absurd h hcount, fun _ h => absurd h hend, fun _ _ => ⟨rfl, rfl, rfl⟩⟩

/-- Settles O16: the byte's absorb, seven counted shifts, and the eighth that ends it. -/
theorem absorbAndEightShiftsProcessOneByte : Obligations.AbsorbAndEightShiftsProcessOneByte :=
  fun rd _ hp => Engine.iterate_byte rd hp

/-- Settles O17: a run ends at rest at the last index with the checksum of the range's bytes. -/
theorem engineRunComputesPureChecksum : Obligations.EngineRunComputesPureChecksum := by
  intro s b first last h hl
  have hlast : last < 512 := by have := b.cap_le; omega
  refine ⟨s.crcRun_crc b h hlast, rfl, ?_, Engine.run_phase _ h hlast⟩
  rw [State.crcRun_eng, Engine.run_eq _ h hlast]
  exact toNat_ofNat_nine hlast

/-- Inside a byte the engine is on: first the absorb is pending, then one of the eight shifts (R84). -/
theorem Engine.phase_iterate_within_byte (rd : Nat → Byte) {g : Engine} (hp : g.phase = .absorb) {k : Nat} (hk : k < 9) :
    (Engine.iterate rd k g).phase ≠ .off := by
  cases k with
  | zero => simp [hp]
  | succ j =>
    have hzero : (g.absorb (rd g.idx.toNat)).bitcnt.toNat + j ≤ 7 := by
      change 0 + j ≤ 7; omega
    rw [Engine.iterate_succ, Engine.micro_absorb hp, Engine.iterate_shift rd j rfl hzero]
    simp [Engine.absorb]

/-- From `idx` to `idx + n` the engine is on before each of the `9 * (n + 1)` micro-operations (R84). -/
theorem Engine.phase_iterate_within_range (rd : Nat → Byte) (n : Nat) {g : Engine} (hp : g.phase = .absorb)
    (hn : g.idx.toNat + n = g.eidx.toNat) {k : Nat} (hk : k < 9 * (n + 1)) :
    (Engine.iterate rd k g).phase ≠ .off := by
  induction n generalizing g k with
  | zero => exact Engine.phase_iterate_within_byte rd hp hk
  | succ n ih =>
    by_cases hbyte : k < 9
    · exact Engine.phase_iterate_within_byte rd hp hbyte
    · obtain ⟨j, rfl⟩ := Nat.exists_eq_add_of_le (Nat.le_of_not_lt hbyte)
      have hi : g.idx ≠ g.eidx := fun h => by rw [h] at hn; omega
      have hrest : (g.idx + 1).toNat + n = g.eidx.toNat := by bv_omega
      rw [Engine.iterate_add, Engine.iterate_byte rd hp, if_neg hi]
      exact ih (g := { g with crc := crcByte g.crc (rd g.idx.toNat), idx := g.idx + 1, bitcnt := 0 }) hp hrest (by omega)

/-- Settles O18: the seed leaves `last - first` bytes after the first one, and the run over them ends at rest. -/
theorem engineRunEndsAfterNineStepsPerByte : Obligations.EngineRunEndsAfterNineStepsPerByte := by
  intro rd first last h hl
  have hspan : (Engine.seed first last).idx.toNat + (last - first) = (Engine.seed first last).eidx.toNat := by
    change (BitVec.ofNat 9 first).toNat + (last - first) = (BitVec.ofNat 9 last).toNat
    rw [toNat_ofNat_nine (by omega), toNat_ofNat_nine hl]; omega
  exact ⟨fun _ => Engine.phase_iterate_within_range rd (last - first) rfl hspan, Engine.run_phase rd h hl⟩

/-! ### The pure checksum: R8, R89 -/

/-- One step of the serial register on bit `k` of `d` (R89 (b)): the feedback is the register's lowest bit and that bit. -/
def serialStep (d : Byte) (r : Half) (k : Nat) : Half :=
  (r >>> 1) ^^^ (if xor (r.getLsbD 0) (d.getLsbD k) then 0xA001#16 else 0#16)

/-- The register's shift without its case split (R8). -/
theorem crcBit_eq_xor (c : Half) : crcBit c = (c >>> 1) ^^^ (if c.getLsbD 0 then 0xA001#16 else 0#16) := by
  rw [crcBit]
  split
  · rfl
  · exact BitVec.xor_zero.symm

/-- A shift of the register with the remaining bits of the byte XORed in is a serial step on the lowest of them. -/
theorem crcBit_xor_ushiftRight (r : Half) (d : Byte) (k : Nat) :
    crcBit (r ^^^ d.setWidth 16 >>> k) = serialStep d r k ^^^ d.setWidth 16 >>> (k + 1) := by
  have hbit : (r ^^^ d.setWidth 16 >>> k).getLsbD 0 = xor (r.getLsbD 0) (d.getLsbD k) := by
    rw [BitVec.getLsbD_xor, ← BitVec.setWidth_ushiftRight (by decide), BitVec.getLsbD_setWidth,
      BitVec.getLsbD_ushiftRight]
    rfl
  rw [crcBit_eq_xor, hbit, BitVec.ushiftRight_xor_distrib, ← BitVec.shiftRight_add, serialStep]
  ac_rfl

/-- Eight shifts take a zero-extended byte out of the register. -/
theorem setWidth_ushiftRight_eight (d : Byte) : d.setWidth 16 >>> 8 = 0#16 := by
  rw [← BitVec.setWidth_ushiftRight (by decide), BitVec.ushiftRight_eq_zero (Nat.le_refl 8), BitVec.setWidth_zero]

/-- `n` shifts are the serial register fed the byte's next `n` bits, with the bits after them still XORed in. -/
theorem crcBits_xor_ushiftRight (n : Nat) (r : Half) (d : Byte) (k : Nat) :
    crcBits n (r ^^^ d.setWidth 16 >>> k) =
      (List.range' k n).foldl (serialStep d) r ^^^ d.setWidth 16 >>> (k + n) := by
  induction n generalizing r k with
  | zero => rfl
  | succ n ih =>
    rw [crcBits_succ, crcBit_xor_ushiftRight, ih, List.range'_succ, List.foldl_cons, Nat.add_right_comm k 1 n]
    rfl

/-- Settles O19: the byte XORed in at once is carried along by the shifts, and after eight of them it is used up. -/
theorem engineIsASerialRegister : Obligations.EngineIsASerialRegister := by
  intro c d
  calc crcByte c d = crcBits 8 (c ^^^ d.setWidth 16 >>> 0) := rfl
    _ = (List.range' 0 8).foldl (serialStep d) c ^^^ d.setWidth 16 >>> (0 + 8) := crcBits_xor_ushiftRight 8 c d 0
    _ = (List.range 8).foldl (serialStep d) c := by
      rw [Nat.zero_add, setWidth_ushiftRight_eight, BitVec.xor_zero, List.range_eq_range']

/-- Shifts that find only zeros at bit 0 are a logical shift: `POLY` is never XORed in (R8). -/
theorem crcBits_of_low_zero (n : Nat) {c : Half} (h : ∀ i < n, c.getLsbD i = false) : crcBits n c = c >>> n := by
  induction n generalizing c with
  | zero => exact c.ushiftRight_zero.symm
  | succ n ih =>
    have hbit : crcBit c = c >>> 1 := if_neg (by rw [h 0 (Nat.succ_pos n)]; exact Bool.false_ne_true)
    have hlow : ∀ i < n, (c >>> 1).getLsbD i = false := fun i hi => by
      rw [BitVec.getLsbD_ushiftRight]; exact h (1 + i) (by omega)
    rw [crcBits_succ, hbit, ih hlow, ← BitVec.shiftRight_add, Nat.add_comm]

/-- The low byte of the register absorbed clears it, and the shifts bring the high byte down. -/
theorem crcByte_lowByte (c : Half) : crcByte c (lowByte c) = (highByte c).setWidth 16 := by
  have hlow : ∀ i < 8, (c ^^^ (lowByte c).setWidth 16).getLsbD i = false := fun i hi => by
    simp [lowByte, hi, show i < 16 by omega]
  have hhigh : c >>> 8 = (highByte c).setWidth 16 := by
    refine BitVec.eq_of_toNat_eq ?_
    rw [highByte, BitVec.toNat_setWidth, BitVec.extractLsb'_toNat, BitVec.toNat_ushiftRight, Nat.shiftRight_eq_div_pow]
    omega
  rw [crcByte, crcBits_of_low_zero 8 hlow, BitVec.ushiftRight_xor_distrib, setWidth_ushiftRight_eight,
    BitVec.xor_zero, hhigh]

/-- The byte that is all the register holds clears it. -/
theorem crcByte_setWidth (d : Byte) : crcByte (d.setWidth 16) d = 0 := by
  rw [crcByte, BitVec.xor_self]; rfl

/-- Settles O20: the low byte leaves the high byte in the register, and the high byte leaves 0. -/
theorem checksumResidueIsZero : Obligations.ChecksumResidueIsZero := by
  intro m _
  calc crc16 (m ++ [lowByte (crc16 m), highByte (crc16 m)])
      = crcFrom (crc16 m) [lowByte (crc16 m), highByte (crc16 m)] := crcFrom_append _ _ _
    _ = crcByte (crcByte (crc16 m) (lowByte (crc16 m))) (highByte (crc16 m)) := rfl
    _ = 0 := by rw [crcByte_lowByte, crcByte_setWidth]

/-! ### The operation CRC: R85 -/

/-- The select of a buffer names it (20_memory.md R40). -/
theorem bufferOf_sel (b : BufId) : bufferOf b.sel = some b := by cases b <;> rfl

/-- On a buffer's select the operands fail on `ARG1` outside the buffer, then on an empty range (R85). -/
theorem crcOperands_sel (b : BufId) (s : State) :
    crcOperands b.sel s =
      if b.cap ≤ s.arg1.toNat then .error .badOperand
      else if s.arg1.toNat < s.arg0.toNat then .error .emptyRange
      else .ok (b, s.arg0.toNat, s.arg1.toNat) := by
  rw [crcOperands, bufferOf_sel]

theorem exec_crc_of_error {sel : BufSel} {s : State} {e : ErrCode} (h : crcOperands sel s = .error e) :
    exec (.crc sel) s = .next (s.raise e .none) := by
  rw [exec, execCrc, h]

/-- A legal range completes with the engine at rest at its last index, holding the checksum of the range (R85, R87). -/
theorem exec_crc_of_range {s : State} {b : BufId} (hcap : s.arg1.toNat < b.cap) (hle : s.arg0.toNat ≤ s.arg1.toNat) :
    exec (.crc b.sel) s = .next { s with
      eng := { crc := s.crcRange b s.arg0.toNat s.arg1.toNat
               idx := BitVec.ofNat 9 s.arg1.toNat, eidx := BitVec.ofNat 9 s.arg1.toNat, bitcnt := 7, phase := .off }
      busy := false, done := true } := by
  have hok : crcOperands b.sel s = .ok (b, s.arg0.toNat, s.arg1.toNat) := by
    rw [crcOperands_sel, if_neg (by omega), if_neg (by omega)]
  have hlast : s.arg1.toNat < 512 := by have := b.cap_le; omega
  rw [exec, execCrc, hok]
  dsimp only [State.crcRun]
  rw [Engine.run_eq _ hle hlast]
  rfl

/-- Settles O21: the operand checks in the order of R85, then the run over the range. -/
theorem crcComputesRangeChecksum : Obligations.CrcComputesRangeChecksum := by
  intro s
  refine ⟨exec_crc_of_error rfl, fun b => ⟨fun hout => ?_, fun hin hempty => ?_, exec_crc_of_range⟩⟩
  · exact exec_crc_of_error (by rw [crcOperands_sel, if_pos hout])
  · exact exec_crc_of_error (by rw [crcOperands_sel, if_neg (by omega), if_pos hempty])

/-- The checksum of a range reads the bytes of the range only (R89 (a)). -/
theorem State.crcRange_congr {s s' : State} {b : BufId} {first last : Nat} (hle : first ≤ last)
    (h : ∀ i, first ≤ i → i ≤ last → s.readByte b i = s'.readByte b i) :
    s.crcRange b first last = s'.crcRange b first last := by
  refine congrArg crc16 (List.map_congr_left fun i hi => ?_)
  have hi := List.mem_range'_1.mp hi
  exact h i hi.1 (by omega)

/-- Settles O22: both machines complete, and the register each is left with is read from the bytes they share. -/
theorem checksumDependsOnRangeOnly : Obligations.ChecksumDependsOnRangeOnly := by
  intro s s' b h0 h1 hcap hle hbytes
  refine ⟨_, _, exec_crc_of_range hcap hle, exec_crc_of_range (h1 ▸ hcap) (h0 ▸ h1 ▸ hle), ?_⟩
  dsimp only
  rw [State.crcRange_congr hle hbytes, h0, h1]

end Machine
end Sys2Proof
end

section
/-! The operation ENC (41_frame_encoder.md R90 to R95): every byte of `TXBUF` after the frame build, the checksum read
back from the frame, and the comparison VAL makes on it. -/

namespace Sys2Proof
namespace Machine

/-! ### The bytes and the checksum the frame build leaves: R90, R92 -/

/-- The payload follows the length byte (R61). -/
theorem getElem?_frameOf_payload {payload : List Byte} {i : Nat} (hi : i < payload.length) :
    (frameOf payload)[3 + i]? = payload[i]? := by
  rw [Nat.add_comm, frameOf_eq, frameCovered]
  exact List.getElem?_append_left (l₁ := payload) hi

/-- From index `n + 7` on the frame build writes nothing (R90). -/
theorem State.readByte_buildFrame_of_ge (s : State) {n : Nat} {payload : List Byte} (hp : payload.length = n + 1)
    {i : Nat} (hi : n + 7 ≤ i) : (s.buildFrame n payload).readByte .txbuf i = s.readByte .txbuf i := by
  let u := (s.writeFrameBody n payload).crcRun .txbuf 1 (3 + n)
  calc (s.buildFrame n payload).readByte .txbuf i
      = (u.writeBytes .txbuf (4 + n) (frameTrailer u.eng.crc)).readByte .txbuf i := rfl
    _ = (s.writeFrameBody n payload).readByte .txbuf i := by
      rw [State.readByte_writeBytes, if_neg (by simp only [frameTrailer, List.length_cons, List.length_nil]; omega)]
      rfl
    _ = s.readByte .txbuf i := by
      rw [State.writeFrameBody, State.readByte_writeBytes, if_neg (by omega), State.readByte_writeBytes,
        if_neg (by simp only [List.length_cons, List.length_nil]; omega)]

section
variable (s : State) {n : Nat} {payload : List Byte} (hn : n ≤ 248) (hp : payload.length = n + 1)
include hn hp

/-- The engine holds the checksum of the frame's covered bytes (R92). -/
theorem State.crc_buildFrame : (s.buildFrame n payload).eng.crc = crc16 (frameCovered payload) := by
  rw [State.buildFrame_eq, frameCovered, hp, Nat.add_sub_cancel, State.writeBytes_eng, s.crc_writeFrameBody hn hp]

/-- Below index `n + 7` `TXBUF` holds the frame, byte by byte. -/
theorem State.getElem?_frameOf_buildFrame {i : Nat} (hi : i < n + 7) :
    (frameOf payload)[i]? = some ((s.buildFrame n payload).readByte .txbuf i) := by
  rw [← s.readBytes_buildFrame hn hp, State.getElem?_readBytes, if_pos hi, Nat.zero_add]

/-- Start marker, command and length byte (R61, R62). -/
theorem State.readByte_buildFrame_header :
    (s.buildFrame n payload).readByte .txbuf 0 = Config.startMark ∧
    (s.buildFrame n payload).readByte .txbuf 1 = Config.cmdReadProcess ∧
    ((s.buildFrame n payload).readByte .txbuf 2).toNat = n := by
  have hframe {i : Nat} (hi : i < n + 7) := s.getElem?_frameOf_buildFrame hn hp hi
  have hlength := lengthByte_frameOf (payload := payload) (by omega)
  rw [List.getD_eq_getElem?_getD, hframe (by omega), Option.getD_some, hp, Nat.add_sub_cancel] at hlength
  exact ⟨(Option.some.inj (hframe (i := 0) (by omega))).symm, (Option.some.inj (hframe (i := 1) (by omega))).symm,
    hlength⟩

theorem State.readByte_buildFrame_payload {i : Nat} (hi : i ≤ n) :
    some ((s.buildFrame n payload).readByte .txbuf (3 + i)) = payload[i]? := by
  rw [← s.getElem?_frameOf_buildFrame hn hp (by omega), getElem?_frameOf_payload (by omega)]

/-- The trailer in `TXBUF` carries the checksum the engine holds, low byte first (R61, R92). -/
theorem State.readByte_buildFrame_trailer :
    (s.buildFrame n payload).readByte .txbuf (4 + n) = lowByte (s.buildFrame n payload).eng.crc ∧
    (s.buildFrame n payload).readByte .txbuf (5 + n) = highByte (s.buildFrame n payload).eng.crc ∧
    (s.buildFrame n payload).readByte .txbuf (6 + n) = Config.endMark := by
  have htrailer {k : Nat} (hk : k < 3) : some ((s.buildFrame n payload).readByte .txbuf (4 + k + n)) =
      (frameTrailer (s.buildFrame n payload).eng.crc)[k]? := by
    rw [← s.getElem?_frameOf_buildFrame hn hp (by omega), s.crc_buildFrame hn hp, ← getElem?_frameOf_trailer, hp,
      show 4 + k + n = n + 1 + 3 + k by omega]
  exact ⟨Option.some.inj (htrailer (k := 0) (by omega)), Option.some.inj (htrailer (k := 1) (by omega)),
    Option.some.inj (htrailer (k := 2) (by omega))⟩

/-- The checksum recomputed over the finished frame is the one the engine was left with (R92). -/
theorem State.crcRange_buildFrame :
    (s.buildFrame n payload).crcRange .txbuf 1 (3 + n) = (s.buildFrame n payload).eng.crc := by
  have hframe := s.readBytes_buildFrame hn hp
  rw [show n + 7 = ((3 + n) + 3) + 1 by omega, State.readBytes_succ, State.readBytes_add, frameOf_eq] at hframe
  have hlength : ((s.buildFrame n payload).readBytes .txbuf 1 (3 + n)).length = (frameCovered payload).length := by
    rw [State.length_readBytes, length_frameCovered]; omega
  have hcovered : (s.buildFrame n payload).readBytes .txbuf 1 (3 + n) = frameCovered payload :=
    List.append_inj_left (List.cons.inj hframe).2 hlength
  rw [State.crcRange, show 3 + n - 1 + 1 = 3 + n by omega, hcovered, s.crc_buildFrame hn hp]

/-- The two stored checksum bytes, high byte first, are the checksum the engine was left with (R69, R92). -/
theorem State.storedBytes_buildFrame :
    (s.buildFrame n payload).readByte .txbuf (5 + n) ++ (s.buildFrame n payload).readByte .txbuf (4 + n) =
      (s.buildFrame n payload).eng.crc := by
  obtain ⟨hlow, hhigh, -⟩ := s.readByte_buildFrame_trailer hn hp
  rw [hlow, hhigh, highByte_append_lowByte]

end

/-! ### The operation ENC: R90, R91 -/

theorem exec_enc_of_tooLarge (sel : BufSel) {s : State} (h : s.arg0.toNat + 7 > 255) :
    exec (.enc sel) s = .next (State.raise { s with flen := 0 } .frameTooLarge .none) := by
  have herror : encOperand s = .error .frameTooLarge := if_pos h
  rw [exec, execEnc, herror]

theorem exec_enc_of_fits (sel : BufSel) {s : State} (h : s.arg0.toNat + 7 ≤ 255) :
    exec (.enc sel) s =
      .next (s.buildFrame s.arg0.toNat (s.readBytes .pbuf 0 (s.arg0.toNat + 1))).complete := by
  have hok : encOperand s = .ok s.arg0.toNat := if_neg (Nat.not_lt.mpr h)
  rw [exec, execEnc, hok]

/-- The end of an operation leaves every buffer byte (R135). -/
theorem State.readByte_complete (s : State) : s.complete.readByte = s.readByte := rfl

theorem State.readBytes_complete (s : State) : s.complete.readBytes = s.readBytes := rfl

theorem State.crcRange_complete (s : State) : s.complete.crcRange = s.crcRange := rfl

/-- Settles O23: the operand check, and the frame build read byte by byte. -/
theorem encBuildsFrame : Obligations.EncBuildsFrame := by
  rintro sel s n rfl
  refine ⟨exec_enc_of_tooLarge sel, fun hfits => ⟨_, exec_enc_of_fits sel hfits, ?_⟩⟩
  have hn : s.arg0.toNat ≤ 248 := by omega
  have hp := s.length_readBytes .pbuf 0 (s.arg0.toNat + 1)
  have hcrc := s.crc_buildFrame hn hp
  rw [frameCovered, hp, Nat.add_sub_cancel] at hcrc
  obtain ⟨hstart, hcommand, hlength⟩ := s.readByte_buildFrame_header hn hp
  obtain ⟨hlow, hhigh, hend⟩ := s.readByte_buildFrame_trailer hn hp
  rw [State.readByte_complete, State.complete_eng, State.complete_flen]
  refine ⟨hstart, hcommand, hlength, fun i hi => ?_, hcrc, hlow, hhigh, hend,
    fun i => s.readByte_buildFrame_of_ge hp, s.flen_buildFrame _ hn, s.phase_buildFrame _ hn, ?_⟩
  · have hbyte := s.readByte_buildFrame_payload hn hp hi
    rw [State.getElem?_readBytes, if_pos (by omega), Nat.zero_add] at hbyte
    exact Option.some.inj hbyte
  · rw [State.buildFrame_frame, State.complete]

/-- Settles O24: what is read back from `TXBUF` is what the engine computed and the trailer stores. -/
theorem encodedChecksumMatchesFrame : Obligations.EncodedChecksumMatchesFrame := by
  intro sel s hfits
  have hn : s.arg0.toNat ≤ 248 := by omega
  have hp := s.length_readBytes .pbuf 0 (s.arg0.toNat + 1)
  refine ⟨_, exec_enc_of_fits sel hfits, ?_⟩
  rw [State.crcRange_complete, State.readByte_complete, s.crcRange_buildFrame hn hp, s.storedBytes_buildFrame hn hp]

/-! ### VAL on an encoded frame: 42_frame_validator.md R100, R95 -/

/-- On a buffer's select a trailer index in range is compared, with `VALID` cleared first, and VAL completes (R100). -/
theorem exec_val_of_range {s : State} {b : BufId} (hlow : 3 ≤ s.arg0.toNat) (hcap : s.arg0.toNat < b.cap) :
    exec (.val b.sel) s = .next (State.validate { s with valid := false } b s.arg0.toNat).complete := by
  have hok : valOperands b.sel { s with valid := false } = .ok (b, s.arg0.toNat) := by
    have hin : ¬(s.arg0.toNat < 3 ∨ b.cap ≤ s.arg0.toNat) := by omega
    rw [valOperands, bufferOf_sel]
    exact if_neg hin
  simp only [exec, execVal, hok]

/-- A write of `ARG0` leaves every buffer byte (R132). -/
theorem State.readByte_with_arg0 (s : State) (a : Half) : State.readByte { s with arg0 := a } = s.readByte := rfl

/-- VAL on a built frame in `TXBUF`, at its trailer index `n + 5`, completes with `VALID` set and no error, and shows
the frame's checksum as computed and as received (R95, R100). -/
theorem exec_val_of_buildFrame {s v : State} {n : Nat} {payload : List Byte} (hn : n ≤ 248)
    (hp : payload.length = n + 1) (hread : v.readByte .txbuf = (s.buildFrame n payload).readByte .txbuf)
    (harg : v.arg0.toNat = n + 5) :
    ∃ u, exec (.val .txbuf) v = .next u ∧ u.valid = true ∧ u.errCode = v.errCode ∧
      u.diagCalc = (s.buildFrame n payload).eng.crc ∧ u.diagRecv = (s.buildFrame n payload).eng.crc := by
  have hcap : BufId.txbuf.cap = 255 := rfl
  have hcalc : (Engine.run (v.readByte .txbuf) 1 (v.arg0.toNat - 2)).crc = (s.buildFrame n payload).eng.crc := by
    rw [hread, harg, show n + 5 - 2 = 3 + n by omega, ← s.crcRange_buildFrame hn hp]
    exact State.crcRun_crc _ .txbuf (by omega) (by omega)
  have hrecv : v.storedChecksum .txbuf v.arg0.toNat = (s.buildFrame n payload).eng.crc := by
    rw [State.storedChecksum, hread, harg, show n + 5 - 1 = 4 + n by omega, Nat.add_comm n 5]
    exact s.storedBytes_buildFrame hn hp
  exact ⟨_, exec_val_of_range (b := .txbuf) (by omega) (by omega), decide_eq_true (hcalc.trans hrecv.symm), rfl, hcalc,
    hrecv⟩

/-- Settles O25: the frame in `TXBUF` is the wire frame a reader takes the payload from, and VAL finds in it, computed
and stored, the checksum ENC left in the engine. -/
theorem encodedFrameValidates : Obligations.EncodedFrameValidates := by
  rintro sel s n rfl hfits
  have hn : s.arg0.toNat ≤ 248 := by omega
  have hp := s.length_readBytes .pbuf 0 (s.arg0.toNat + 1)
  have hframe := s.readBytes_buildFrame hn hp
  obtain ⟨hstart, hcommand, hlength⟩ := s.readByte_buildFrame_header hn hp
  obtain ⟨-, -, hend⟩ := s.readByte_buildFrame_trailer hn hp
  have hti : (BitVec.ofNat 16 (s.arg0.toNat + 5)).toNat = s.arg0.toNat + 5 := by
    rw [BitVec.toNat_ofNat, Nat.mod_eq_of_lt (by omega)]
  obtain ⟨u, hval, hvalid, herr, hcalc, hrecv⟩ := exec_val_of_buildFrame hn hp (s := s)
    (v := { (s.buildFrame s.arg0.toNat (s.readBytes .pbuf 0 (s.arg0.toNat + 1))).complete with
      arg0 := BitVec.ofNat 16 (s.arg0.toNat + 5) }) (by rw [State.readByte_with_arg0, State.readByte_complete]) hti
  refine ⟨_, u, exec_enc_of_fits sel hfits, hframe, ?_, hstart, hcommand, hend, hlength, fun hzero => ?_, ?_, hval,
    hvalid, ?_, hcalc, hrecv⟩
  · rw [State.readBytes_complete, hframe, framePayload_frameOf (by omega) (by omega)]
  · exact BitVec.eq_of_toNat_eq (hlength.trans hzero)
  · rw [State.readByte_complete, State.complete_flen, hlength, s.flen_buildFrame _ hn]
  · rw [herr, State.buildFrame_frame, State.complete_errCode]

end Machine
end Sys2Proof
end

section
/-! The operation VAL (42_frame_validator.md R100, R101): its operand check, and the whole state a comparison leaves. -/

namespace Sys2Proof
namespace Machine

/-- `VALID` is cleared before the operand check, so it is 0 on the raise too (R100). -/
theorem exec_val_of_error {sel : BufSel} {s : State} {e : ErrCode}
    (h : valOperands sel { s with valid := false } = .error e) :
    exec (.val sel) s = .next (State.raise { s with valid := false } e .none) := by
  simp only [exec, execVal, h]

/-- On a buffer's select the operands fail exactly on a trailer index below 3 or outside the buffer (R101). -/
theorem valOperands_sel (b : BufId) (s : State) :
    valOperands b.sel s =
      if s.arg0.toNat < 3 ∨ b.cap ≤ s.arg0.toNat then .error .badOperand else .ok (b, s.arg0.toNat) := by
  rw [valOperands, bufferOf_sel]

/-- A comparison leaves the engine at rest at `ti - 2`, and shows the checksum of `[1, ti - 2]` and the stored one
(R100). -/
theorem State.validate_eq (s : State) (b : BufId) {ti : Nat} (hlow : 3 ≤ ti) (hti : ti < 512) :
    s.validate b ti = { s with
      eng := { crc := crc16 ((List.range' 1 (ti - 2)).map (s.readByte b))
               idx := BitVec.ofNat 9 (ti - 2), eidx := BitVec.ofNat 9 (ti - 2), bitcnt := 7, phase := .off }
      diagCalc := crc16 ((List.range' 1 (ti - 2)).map (s.readByte b))
      diagRecv := s.storedChecksum b ti
      valid := decide (crc16 ((List.range' 1 (ti - 2)).map (s.readByte b)) = s.storedChecksum b ti) } := by
  have hrun := Engine.run_eq (s.readByte b) (first := 1) (last := ti - 2) (by omega) (by omega)
  rw [show ti - 2 - 1 + 1 = ti - 2 by omega] at hrun
  rw [State.validate_frame, State.validate_eng, State.validate_diagCalc, State.validate_diagRecv, State.validate_valid,
    hrun]

/-- Settles O27: the reserved select and an index out of range fail the operand check; any other index is compared. -/
theorem valComparesChecksums : Obligations.ValComparesChecksums := by
  intro s
  refine ⟨exec_val_of_error rfl, fun b => ⟨fun hout => ?_, fun hlow hcap => ⟨_, _, rfl, rfl, ?_⟩⟩⟩
  · exact exec_val_of_error (by rw [valOperands_sel, if_pos hout])
  · have hti : s.arg0.toNat < 512 := by have := b.cap_le; omega
    rw [exec_val_of_range hlow hcap, State.validate_eq _ b hlow hti]
    rfl

end Machine
end Sys2Proof
end

section
/-! The Byte-Order Decoder (43_float_decoder.md R105, R108): the four bytes of an assembled word, and that no word and
no byte sequence is lost. -/

namespace Sys2Proof
namespace Machine

theorem wireWord_false (b0 b1 b2 b3 : Byte) : wireWord false b0 b1 b2 b3 = b3 ++ b2 ++ b1 ++ b0 := rfl

/-- The two wire orders mirror each other (R105), so a fact about one is a fact about the other. -/
theorem wireWord_true (b0 b1 b2 b3 : Byte) : wireWord true b0 b1 b2 b3 = wireWord false b3 b2 b1 b0 := rfl

/-- Little-endian, the lowest index is least significant (R105, 20_memory.md R47). -/
theorem bytes_wireWord_false (b0 b1 b2 b3 : Byte) :
    (wireWord false b0 b1 b2 b3).extractLsb' 0 8 = b0 ∧ (wireWord false b0 b1 b2 b3).extractLsb' 8 8 = b1 ∧
    (wireWord false b0 b1 b2 b3).extractLsb' 16 8 = b2 ∧ (wireWord false b0 b1 b2 b3).extractLsb' 24 8 = b3 := by
  rw [wireWord_false]
  refine ⟨BitVec.extractLsb'_append_eq_right, ?_, ?_, ?_⟩
  · rw [BitVec.extractLsb'_append_eq_of_le (by decide)]
    exact BitVec.extractLsb'_append_eq_right
  · rw [BitVec.extractLsb'_append_eq_of_le (by decide), BitVec.extractLsb'_append_eq_of_le (by decide)]
    exact BitVec.extractLsb'_append_eq_right
  · rw [BitVec.extractLsb'_append_eq_of_le (by decide), BitVec.extractLsb'_append_eq_of_le (by decide)]
    exact BitVec.extractLsb'_append_eq_left

/-- The word assembled little-endian from its own four bytes is the word again (R105). -/
theorem wireWord_false_bytes (v : Word32) :
    wireWord false (v.extractLsb' 0 8) (v.extractLsb' 8 8) (v.extractLsb' 16 8) (v.extractLsb' 24 8) = v := by
  rw [wireWord_false, BitVec.extractLsb'_append_extractLsb'_eq_extractLsb' (by decide),
    BitVec.extractLsb'_append_extractLsb'_eq_extractLsb' (by decide),
    BitVec.extractLsb'_append_extractLsb'_eq_extractLsb' (by decide)]
  exact BitVec.extractLsb'_eq_self

theorem wireWord_false_injective {b0 b1 b2 b3 c0 c1 c2 c3 : Byte}
    (h : wireWord false b0 b1 b2 b3 = wireWord false c0 c1 c2 c3) : b0 = c0 ∧ b1 = c1 ∧ b2 = c2 ∧ b3 = c3 := by
  obtain ⟨hb0, hb1, hb2, hb3⟩ := bytes_wireWord_false b0 b1 b2 b3
  obtain ⟨hc0, hc1, hc2, hc3⟩ := bytes_wireWord_false c0 c1 c2 c3
  rw [h] at hb0 hb1 hb2 hb3
  exact ⟨hb0.symm.trans hc0, hb1.symm.trans hc1, hb2.symm.trans hc2, hb3.symm.trans hc3⟩

/-- Settles O29: little-endian a word's own bytes assemble it and every assembly shows its bytes; big-endian is the
mirror image. -/
theorem readingAssemblyIsLossless : Obligations.ReadingAssemblyIsLossless := by
  intro be
  cases be with
  | false => exact ⟨fun v => ⟨_, _, _, _, wireWord_false_bytes v⟩, fun _ _ _ _ _ _ _ _ => wireWord_false_injective⟩
  | true =>
    refine ⟨fun v => ⟨_, _, _, _, (wireWord_true _ _ _ _).trans (wireWord_false_bytes v)⟩,
      fun b0 b1 b2 b3 c0 c1 c2 c3 h => ?_⟩
    rw [wireWord_true, wireWord_true] at h
    obtain ⟨h3, h2, h1, h0⟩ := wireWord_false_injective h
    exact ⟨h0, h1, h2, h3⟩

end Machine
end Sys2Proof
end

section
/-! The operation DEC (43_float_decoder.md R105, R106): the bytes of the reading by index, its operand check, and the
whole state a decode leaves. -/

namespace Sys2Proof
namespace Machine

/-- Little-endian, byte `k` of the word stands `k` bytes from the bottom (R105). -/
theorem extractLsb'_wireWord_false (f : Nat → Byte) {k : Nat} (hk : k < 4) :
    (wireWord false (f 0) (f 1) (f 2) (f 3)).extractLsb' (8 * k) 8 = f k := by
  obtain ⟨h0, h1, h2, h3⟩ := bytes_wireWord_false (f 0) (f 1) (f 2) (f 3)
  match k with
  | 0 => exact h0
  | 1 => exact h1
  | 2 => exact h2
  | 3 => exact h3

/-- Big-endian, byte `k` of the word stands `k` bytes from the top (R105). -/
theorem extractLsb'_wireWord_true (f : Nat → Byte) {k : Nat} (hk : k < 4) :
    (wireWord true (f 0) (f 1) (f 2) (f 3)).extractLsb' (24 - 8 * k) 8 = f k := by
  have hmirror := extractLsb'_wireWord_false (fun j => f (3 - j)) (k := 3 - k) (by omega)
  rwa [Nat.mul_sub, Nat.sub_sub_self (by omega)] at hmirror

/-- On a buffer's select the operands fail exactly on an offset whose fourth byte lies outside the buffer (R106). -/
theorem decOperands_sel (b : BufId) (s : State) :
    decOperands b.sel s =
      if b.cap ≤ s.arg0.toNat + 3 then .error .badOperand else .ok (b, s.arg0.toNat) := by
  rw [decOperands, bufferOf_sel]

theorem exec_dec_of_error {sel : BufSel} {s : State} {e : ErrCode} (h : decOperands sel s = .error e) :
    exec (.dec sel) s = .next (s.raise e .none) := by
  rw [exec, execDec, h]

/-- With its four bytes inside the buffer DEC delivers them and completes (R106). -/
theorem exec_dec_of_range {s : State} {b : BufId} (h : s.arg0.toNat + 3 < b.cap) :
    exec (.dec b.sel) s =
      .next (State.complete { s with reading := s.f32Bits b s.arg0.toNat s.wireBE }) := by
  have hok : decOperands b.sel s = .ok (b, s.arg0.toNat) := by rw [decOperands_sel, if_neg (by omega)]
  rw [exec, execDec, hok]

/-- Settles O28: the reserved select and an offset too high fail the operand check; any other offset delivers
`f32_bits`, whose bytes are the buffer's in the order `CFG.WIRE_BE` names. -/
theorem decDeliversReading : Obligations.DecDeliversReading := by
  intro s
  refine ⟨exec_dec_of_error rfl, fun b => ⟨fun hout => ?_, fun hin =>
    ⟨_, exec_dec_of_range hin, fun hbe k hk => ?_, fun hbe k hk => ?_⟩⟩⟩
  · exact exec_dec_of_error (by rw [decOperands_sel, if_pos hout])
  · rw [State.wireBE, hbe]
    exact extractLsb'_wireWord_false (fun j => s.readByte b (s.arg0.toNat + j)) hk
  · rw [State.wireBE, hbe]
    exact extractLsb'_wireWord_true (fun j => s.readByte b (s.arg0.toNat + j)) hk

end Machine
end Sys2Proof
end

section
/-! The transitions of a read, one step each (44_poll_fsm.md R111 to R128): the start, the answers of the transport, the
ticks of the settle wait and the turns of the sequencer. -/

namespace Sys2Proof
namespace Machine

/-! ### The start step: R111, R94 -/

/-- The engine is left with the checksum of the read frame (R94). -/
theorem State.crc_rdtStart (s : State) : s.rdtStart.eng.crc = 0x00D0 := by
  have hcovered : crc16 (frameCovered [Config.readPayload]) = 0x00D0 := by decide +kernel
  exact (State.crc_buildFrame _ (Nat.zero_le 248) rfl).trans hcovered

/-- The frame build of the start writes seven bytes (R111). -/
theorem State.readByte_txbuf_rdtStart (s : State) {i : Nat} (hi : 7 ≤ i) :
    s.rdtStart.readByte .txbuf i = s.readByte .txbuf i :=
  State.readByte_buildFrame_of_ge _ rfl hi

/-- A transmission leaves every buffer byte (R115). -/
theorem State.readByte_enterSending (s : State) : s.enterSending.readByte = s.readByte := rfl

theorem State.readBytes_enterSending (s : State) : s.enterSending.readBytes = s.readBytes := rfl

theorem State.enterSending_eng (s : State) : s.enterSending.eng = s.eng := rfl

/-- With the read frame in `TXBUF` it is what `Sending` posts (R57, R115). -/
theorem State.enterSending_of_frame {s : State} (hlen : s.flen = 7) (hframe : s.readBytes .txbuf 0 7 = readFrame) :
    s.enterSending =
      { s with pstate := .sending, xreq := .tx, outputs := .transmit readFrame :: s.outputs } := by
  rw [← State.enterSending_outputs hlen hframe]
  rfl

/-- The whole state the start step of RDT leaves (R111, R115). -/
theorem State.enterSending_rdtStart (s : State) :
    s.rdtStart.enterSending = { s with
      rxbuf := Memory.zeros BufId.rxbuf.cap, txbuf := s.rdtStart.txbuf, eng := s.rdtStart.eng, flen := 7, rxcnt := 0
      attempt := 0, timer := 0, pstate := .sending, xreq := .tx, outputs := .transmit readFrame :: s.outputs } := by
  have hlen : s.rdtStart.flen = 7 := by rw [State.rdtStart_frame]
  rw [State.enterSending_of_frame hlen s.readBytes_txbuf_rdtStart]
  conv_lhs => rw [State.rdtStart_frame]

/-- Settles O30: the start always transmits, and its buffers, checksum and frame are those of `State.rdtStart`. -/
theorem rdtStartsByTransmittingReadFrame : Obligations.RdtStartsByTransmittingReadFrame := by
  intro sel s
  refine ⟨s.rdtStart.enterSending, execRdt_eq sel s, ?_⟩
  rw [State.readByte_enterSending, State.readBytes_enterSending, State.enterSending_eng]
  refine ⟨fun i hi => s.readByte_rxbuf_rdtStart hi, s.readBytes_txbuf_rdtStart,
    fun i hi => s.readByte_txbuf_rdtStart hi, s.crc_rdtStart, State.phase_buildFrame _ _ (Nat.zero_le 248), ?_⟩
  rw [State.enterSending_rdtStart, readFrame]

/-- With `BUSY` = 0 the write of a word that decodes runs its operation after the prologue (45_host_port.md R135). -/
theorem step_wreg_cmd {s : State} {w : Byte} {i : Instr} {rest : List Input} (hb : s.busy = false)
    (hdec : decode w = .ok i) (hin : s.inputs = .host (.wreg .cmd w) :: rest) :
    step s = exec i (State.accept { s with inputs := rest } w) := by
  rw [step_cons hin]
  calc event (.host (.wreg .cmd w)) { s with inputs := rest }
      = startOperation w { s with inputs := rest } := hostTransaction_wreg_cmd (s := { s with inputs := rest }) hb w
    _ = exec i (State.accept { s with inputs := rest } w) := startOperation_ok hdec _

/-- The step that starts a read (R111). -/
theorem step_rdt {s : State} {sel : BufSel} {rest : List Input} (hb : s.busy = false)
    (hin : s.inputs = .host (.wreg .cmd (encode (.rdt sel))) :: rest) :
    step s = .next (State.rdtStart (State.accept { s with inputs := rest } (encode (.rdt sel)))).enterSending := by
  rw [step_wreg_cmd hb (decode_encode _) hin]
  exact execRdt_eq sel _

/-! ### `Transmit` answers, and the settle wait: R116 to R118, R125 -/

/-- Settles O31: the answer a request waits for takes its transition (R116). -/
theorem transmitOkStartsSettleWait : Obligations.TransmitOkStartsSettleWait := by
  intro s count rest hp hx hin
  rw [step_cons hin]
  exact congrArg _ (if_pos ⟨hp, hx⟩)

/-- Settles O32: both errors raise `BadResponse` from `TransportError`, each with its cause (R117, R121). -/
theorem transportErrorEndsRead : Obligations.TransportErrorEndsRead := by
  refine ⟨fun s rest hp hx hin => ?_, fun s rest hp hx hin => ?_⟩
  · rw [step_cons hin]
    exact congrArg _ (if_pos ⟨hp, hx⟩)
  · rw [step_cons hin]
    exact congrArg _ (if_pos ⟨hp, hx⟩)

theorem step_tick_of_waiting {s : State} {rest : List Input} (hp : s.pstate = .awaitingResponse) (hx : s.xreq = .none)
    (ht : s.timer ≠ 0) (hin : s.inputs = .tick :: rest) :
    step s = .next { s with inputs := rest, timer := s.timer - 1 } := by
  rw [step_cons hin]
  exact congrArg _ (if_pos ⟨hp, hx, ht⟩)

/-- The machine's run whose first step goes on is its run from there. -/
theorem core_run_succ (n : Nat) {s t : State} (h : step s = .next t) :
    Sys2Proof.core.run (n + 1) s = Sys2Proof.core.run n t :=
  run_succ_of_next Sys2Proof.core n h

/-- As many ticks as `TIMER` shows end the settle wait (R118). -/
theorem run_ticks {n : Nat} {s : State} {rest : List Input} (hp : s.pstate = .awaitingResponse) (hx : s.xreq = .none)
    (hn : s.timer.toNat = n) (hin : s.inputs = List.replicate n .tick ++ rest) :
    Sys2Proof.core.run n s = .next { s with inputs := rest, timer := 0 } := by
  induction n generalizing s with
  | zero =>
    have ht : s.timer = 0 := BitVec.eq_of_toNat_eq hn
    rw [← ht, show rest = s.inputs from hin.symm]
    rfl
  | succ n ih =>
    have ht : s.timer ≠ 0 := fun h => by rw [h] at hn; cases hn
    have hless : (s.timer - 1).toNat = n := by bv_omega
    exact (core_run_succ n (step_tick_of_waiting hp hx ht hin)).trans
      (ih (s := { s with inputs := List.replicate n .tick ++ rest, timer := s.timer - 1 }) hp hx hless rfl)

/-- A `Transmit` answered `Ok` and `SETTLE` ticks lead to the end of the settle wait (R116, R118). -/
theorem run_settle_wait {s : State} {count : Nat} {rest : List Input} (hp : s.pstate = .sending) (hx : s.xreq = .tx)
    (hin : s.inputs = .transmitOk count :: (List.replicate s.settle.toNat .tick ++ rest)) :
    Sys2Proof.core.run (1 + s.settle.toNat) s =
      .next { s with inputs := rest, xreq := .none, timer := 0, pstate := .awaitingResponse } := by
  rw [Nat.add_comm]
  exact (core_run_succ _ (transmitOkStartsSettleWait s count _ hp hx hin)).trans (run_ticks rfl rfl rfl rfl)

/-- Settles O33: the tick counts in the settle wait only, during which the sequencer stands still. -/
theorem tickCountsSettleWait : Obligations.TickCountsSettleWait := by
  refine ⟨fun s rest => step_tick_of_waiting, fun s rest hwait hin => ?_, fun s rest hp hx ht hin => ?_,
    fun s count rest => run_settle_wait⟩
  · rw [step_cons hin]
    exact congrArg _ (if_neg hwait)
  · have hseq : State.sequencerStep { s with inputs := rest } = { s with inputs := rest } := by
      have hwait : ¬ s.timer = 0 := ht
      simp only [State.sequencerStep, hp, hwait, and_false, if_false, reduceCtorEq]
    rw [step_cons hin]
    exact congrArg _ hseq

/-! ### The turns of the sequencer: R119, R122 -/

theorem State.sequencerStep_of_settled {s : State} (hb : s.busy = true) (hp : s.pstate = .awaitingResponse)
    (hx : s.xreq = .none) (ht : s.timer = 0) : s.sequencerStep = s.postReceive :=
  if_pos ⟨hb, hp, hx, ht⟩

theorem State.sequencerStep_of_retrying {s : State} (hb : s.busy = true) (hp : s.pstate = .retrying) :
    s.sequencerStep = s.enterSending := by
  simp [State.sequencerStep, hb, hp]

/-- Settles O34: `Receive` is posted in the sequencer's own turn or in one given to it. -/
theorem settledSequencerPostsReceive : Obligations.SettledSequencerPostsReceive := by
  refine fun s hb hp hx ht => ⟨fun hin => ?_, fun rest hin => ?_⟩
  · rw [step_nil hin, State.sequencerStep_of_settled hb hp hx ht]
    rfl
  · rw [step_cons hin]
    exact congrArg _ (State.sequencerStep_of_settled (s := { s with inputs := rest }) hb hp hx ht)

/-- What `Sending` posts, index by index (R115). -/
theorem State.enterSending_eq (s : State) :
    s.enterSending = { s with
      pstate := .sending, xreq := .tx
      outputs := .transmit ((List.range s.flen.toNat).map (s.readByte .txbuf)) :: s.outputs } := by
  rw [List.range_eq_range']
  rfl

/-- Settles O37: `Retrying` enters `Sending` in the sequencer's own turn or in one given to it. -/
theorem retryingSendsSameFrameAgain : Obligations.RetryingSendsSameFrameAgain := by
  refine fun s hb hp => ⟨fun hin => ?_, fun rest hin => ?_⟩
  · rw [step_nil hin, State.sequencerStep_of_retrying hb hp, State.enterSending_eq]
  · rw [step_cons hin]
    exact congrArg _ ((State.sequencerStep_of_retrying (s := { s with inputs := rest }) hb hp).trans
      (State.enterSending_eq _))

/-! ### `Receive` answers `Ok`: R120, R128 -/

/-- The machine with the answer of `Receive` taken, where it meets the gate (R120). -/
def State.received (s : State) (bytes : List Byte) : State :=
  { (s.writeBytes .rxbuf 0 bytes) with
    rxcnt := BitVec.ofNat 9 bytes.length, attempt := s.attempt + 1, xreq := .none }

/-- The bytes received overwrite `RXBUF` from index 0 on (R120). -/
theorem State.readByte_received (s : State) (bytes : List Byte) (i : Nat) :
    (s.received bytes).readByte .rxbuf i = bytes.getD i (s.readByte .rxbuf i) := by
  rw [show (s.received bytes).readByte .rxbuf i = (s.writeBytes .rxbuf 0 bytes).readByte .rxbuf i from rfl,
    State.readByte_writeBytes]
  by_cases hi : i < bytes.length
  · simp [hi]
  · simp [hi]

/-- An answer within the transport's contract goes into `RXBUF` and on to the gate (R120). -/
theorem step_receiveOk {s : State} {bytes : List Byte} {rest : List Input} (hp : s.pstate = .awaitingResponse)
    (hx : s.xreq = .rx) (hlen : bytes.length ≤ 280) (hin : s.inputs = .receiveOk bytes :: rest) :
    step s = .next ((State.received { s with inputs := rest } bytes).gate false) := by
  rw [step_cons hin]
  exact (if_pos ⟨hp, hx⟩).trans (if_neg (Nat.not_lt.mpr hlen))

theorem toNat_attempt_succ {a : BitVec 3} (h : a.toNat < 4) : (a + 1).toNat = a.toNat + 1 := by bv_omega

/-- The marker is missing and cycles are left: the read is retried (R114). -/
theorem State.gate_received_retry {s : State} {bytes : List Byte}
    (hm : bytes.getD 1 (s.readByte .rxbuf 1) ≠ 0x22) (ha : s.attempt.toNat < 3) :
    (s.received bytes).gate false = { s.received bytes with pstate := .retrying } := by
  have hleft : (s.received bytes).attempt.toNat < 4 := by
    rw [State.received, toNat_attempt_succ (by omega)]; omega
  rw [State.gate_unmarked _ (by rw [State.readByte_received]; exact hm), if_pos hleft]

/-- The marker is missing after the fourth cycle: the read is exhausted (R114, R124). -/
theorem State.gate_received_exhausted {s : State} {bytes : List Byte}
    (hm : bytes.getD 1 (s.readByte .rxbuf 1) ≠ 0x22) (ha : s.attempt.toNat = 3) :
    (s.received bytes).gate false =
      State.raise { s.received bytes with pstate := .exhausted } .badResponse .noConfirm := by
  have hnone : ¬ (s.received bytes).attempt.toNat < 4 := by
    rw [State.received, toNat_attempt_succ (by omega)]; omega
  rw [State.gate_unmarked _ (by rw [State.readByte_received]; exact hm), if_neg hnone]

/-- The marker in the reference mode confirms (R113, R123). -/
theorem State.gate_received_confirmed {s : State} {bytes : List Byte}
    (hm : bytes.getD 1 (s.readByte .rxbuf 1) = 0x22) (hs : s.cfg.getLsbD 0 = false) :
    (s.received bytes).gate false = (s.received bytes).enterConfirmed :=
  State.gate_marked _ _ (by rw [State.readByte_received]; exact hm) (by rw [State.strict]; exact hs)

end Machine
end Sys2Proof
end

section
/-! What a `Receive` answered `Ok` leaves: the marker decides (44_poll_fsm.md R113, R114, R120), and in strict mode the
checksum of the response (R128). -/

namespace Sys2Proof
namespace Machine

/-- The whole state `Confirmed` leaves, by the bytes of `RXBUF` (R123, 43_float_decoder.md R109). -/
theorem State.enterConfirmed_eq {s : State} {held : Nat → Byte} (hread : ∀ i, s.readByte .rxbuf i = held i) :
    s.enterConfirmed = { s with
      pstate := .confirmed, reading := wireWord (s.cfg.getLsbD 1) (held 11) (held 12) (held 13) (held 14)
      busy := false, done := true } := by
  obtain rfl : s.readByte .rxbuf = held := funext hread
  rfl

/-- Settles O35: the step goes to the gate, and the marker of the bytes received decides there. -/
theorem receiveOkMarkerDecides : Obligations.ReceiveOkMarkerDecides := by
  intro s bytes rest held hp hx hlen hin hheld
  have hread (i : Nat) : (State.received { s with inputs := rest } bytes).readByte .rxbuf i = held i :=
    (State.readByte_received _ bytes i).trans (hheld i).symm
  have hstep := step_receiveOk hp hx hlen hin
  refine ⟨fun hm hs => ?_, fun hm ha => ?_, fun hm ha => ?_⟩ <;> rw [hheld] at hm
  · rw [State.gate_received_confirmed (s := { s with inputs := rest }) hm hs, State.enterConfirmed_eq hread] at hstep
    exact ⟨_, hstep, hread, rfl⟩
  · rw [State.gate_received_retry (s := { s with inputs := rest }) hm ha] at hstep
    exact ⟨_, hstep, hread, rfl⟩
  · rw [State.gate_received_exhausted (s := { s with inputs := rest }) hm ha] at hstep
    exact ⟨_, hstep, hread, rfl⟩

/-- The gate after a `Receive` leaves every buffer byte. -/
theorem State.readByte_gate (s : State) : (s.gate false).readByte = s.readByte := by
  obtain ⟨u, hu, hgate⟩ := s.gate_cases
  have hkept : u.readByte = s.readByte := by rcases hu with rfl | rfl <;> rfl
  rcases hgate with h | ⟨-, h⟩ | ⟨-, h⟩ <;> rw [h] <;> exact hkept

/-- What the strict check writes, by the bytes of `RXBUF`: it compares the checksum over `[1, n + 3]` with the two bytes
the trailer index `n + 5` names (R128). -/
theorem State.strictCheck_eq {s : State} {held : Nat → Byte} {n : Nat} (hread : ∀ i, s.readByte .rxbuf i = held i)
    (hn : (held 2).toNat = n) {computed stored : Half} (hcomputed : computed = crc16 ((List.range' 1 (n + 3)).map held))
    (hstored : stored = held (n + 5) ++ held (n + 4)) :
    s.strictCheck = { s with
      eng := { crc := computed, idx := BitVec.ofNat 9 (n + 3), eidx := BitVec.ofNat 9 (n + 3)
               bitcnt := 7, phase := .off }
      diagCalc := computed, diagRecv := stored, valid := decide (computed = stored) } := by
  have hbyte := (held 2).isLt
  obtain rfl : s.readByte .rxbuf = held := funext hread
  subst hn hcomputed hstored
  rw [State.strictCheck, State.validate_eq s .rxbuf (by omega) (by omega), Nat.add_sub_assoc (by decide)]
  rfl

/-- Settles O36: the gate's three ways, on the state the strict check leaves. -/
theorem receiveOkStrictChecksumDecides : Obligations.ReceiveOkStrictChecksumDecides := by
  intro s bytes rest held n computed stored hp hx hlen hin hheld hm hs hn hcomputed hstored
  let u := State.received { s with inputs := rest } bytes
  have hread (i : Nat) : u.readByte .rxbuf i = held i := (State.readByte_received _ bytes i).trans (hheld i).symm
  have hmark : u.readByte .rxbuf 1 = Config.confirm := (hread 1).trans hm
  have hcheck := State.strictCheck_eq hread hn hcomputed hstored
  have hvalid : u.strictCheck.valid = decide (computed = stored) := by rw [hcheck]
  have hattempt (h : s.attempt.toNat < 4) : u.strictCheck.attempt.toNat = s.attempt.toNat + 1 := by
    rw [hcheck]; exact toNat_attempt_succ h
  refine ⟨u.gate false, step_receiveOk hp hx hlen hin, by rw [State.readByte_gate]; exact hread, fun heq => ?_,
    fun hne ha => ?_, fun hne ha => ?_⟩ <;> rw [State.gate_strict u hmark hs, hvalid]
  · rw [if_pos (decide_eq_true heq), State.enterConfirmed_eq (s := u.strictCheck) hread, hcheck, decide_eq_true heq]
    rfl
  · have hleft : u.strictCheck.attempt.toNat < 4 := by rw [hattempt (by omega)]; omega
    rw [if_neg (by simpa using hne), if_pos hleft, hcheck, decide_eq_false hne]
    rfl
  · have hnone : ¬ u.strictCheck.attempt.toNat < 4 := by rw [hattempt (by omega)]; omega
    have hmark' : u.strictCheck.readByte .rxbuf 1 = Config.confirm := hmark
    rw [if_neg (by simpa using hne), if_neg hnone, State.enterExhausted, if_pos hmark', hcheck, decide_eq_false hne]
    rfl

end Machine
end Sys2Proof
end

section
/-! The transition table of the poll machine (44_poll_fsm.md R126): what each kind of event does to `PSTATE`. -/

namespace Sys2Proof
namespace Machine

/-- Of the operations only RDT moves `PSTATE`, and it enters `Sending` (R111). -/
theorem exec_pstate {i : Instr} {s t : State} (h : exec i s = .next t) :
    t.pstate = s.pstate ∨ (t.pstate = .sending ∧ ∃ sel, i = .rdt sel) := by
  rcases exec_cases h with ⟨v, n, e, -, -, rfl⟩ | ⟨-, b, first, last, -, -, -, rfl⟩ | ⟨-, n, -, -, rfl⟩ |
    ⟨-, b, ti, -, -, -, rfl⟩ | ⟨-, b, o, -, rfl⟩ | ⟨sel, hi, rfl⟩
  · exact .inl rfl
  · exact .inl rfl
  · exact .inl (by rw [State.buildFrame_frame]; rfl)
  · exact .inl (by simp)
  · exact .inl rfl
  · exact .inr ⟨rfl, sel, hi⟩

theorem State.writeRegister_pstate (s : State) (r : HostReg) (v : BitVec r.width) :
    (s.writeRegister r v).pstate = s.pstate := by cases r <;> rfl

/-- The host moves `PSTATE` only by the accepted start of an RDT (R126). -/
theorem hostTransaction_pstate {x : HostTxn} {s t : State} (h : hostTransaction x s = .next t) :
    t.pstate = s.pstate ∨
    (s.busy = false ∧ t.pstate = .sending ∧ ∃ sel, x = .wreg .cmd (encode (.rdt sel))) := by
  rcases hostTransaction_cases h with ⟨o, rfl, -⟩ | ⟨b, i, v, -, -, -, rfl⟩ | ⟨r, v, -, -, rfl⟩ |
    ⟨w, i, hb, rfl, hdec, hexec⟩ | ⟨w, -, -, rfl⟩
  · exact .inl rfl
  · exact .inl (State.writeByte_pstate s b i v)
  · exact .inl (s.writeRegister_pstate r v)
  · rcases exec_pstate hexec with hsame | ⟨hp, sel, rfl⟩
    · exact .inl hsame
    · exact .inr ⟨hb, hp, sel, by rw [encode_of_decode hdec]⟩
  · exact .inl rfl

/-- The sequencer moves `PSTATE` only out of `Retrying` (R122). -/
theorem State.sequencerStep_pstate (s : State) :
    s.sequencerStep.pstate = s.pstate ∨ (s.pstate = .retrying ∧ s.sequencerStep.pstate = .sending) := by
  rcases s.sequencerStep_cases with h | ⟨-, -, -, -, h⟩ | ⟨-, hp, h⟩ <;> rw [h]
  · exact .inl rfl
  · exact .inl rfl
  · exact .inr ⟨hp, rfl⟩

/-- Where the gate after a `Receive` leads, with the attempts it found (R114, R126). -/
theorem State.gate_pstate (s : State) :
    (s.gate false).attempt = s.attempt ∧
    ((s.gate false).pstate = .confirmed ∨
      (s.gate false).pstate = .retrying ∧ s.attempt.toNat < 4 ∨
      (s.gate false).pstate = .exhausted ∧ 4 ≤ s.attempt.toNat) := by
  obtain ⟨u, hu, hgate⟩ := s.gate_cases
  have hkept : u.attempt = s.attempt := by rcases hu with rfl | rfl <;> simp [State.strictCheck]
  rcases hgate with h | ⟨ha, h⟩ | ⟨ha, h⟩ <;> rw [h]
  · exact ⟨hkept, .inl rfl⟩
  · exact ⟨hkept, .inr (.inl ⟨rfl, ha⟩)⟩
  · exact ⟨hkept, .inr (.inr ⟨rfl, ha⟩)⟩

/-- Settles O43, event by event; the invariant bounds the attempts with which a read can be exhausted. -/
theorem pollStateMovesOnlyByTable : Obligations.PollStateMovesOnlyByTable := by
  intro s t h hstep hne
  rcases step_cases hstep with ⟨hin, rfl⟩ | ⟨e, rest, hin, hevent⟩
  · obtain ⟨hp, hsend⟩ := s.sequencerStep_pstate.resolve_left hne
    exact .inr (.inr (.inr (.inr (.inr (.inl ⟨hp, hsend, .inl hin⟩)))))
  rw [hin, List.head?_cons]
  rcases event_cases hevent with ⟨x, rfl, hx⟩ | ⟨rfl, rfl⟩ | rfl | ⟨-, -, -, -, rfl⟩ | ⟨count, rfl, hp, -, rfl⟩ |
    ⟨rfl, hp, -, rfl⟩ | ⟨bytes, rfl, hp, hx, -, rfl⟩ | ⟨rfl, hp, hx, rfl⟩ | ⟨rfl, rfl⟩
  · obtain ⟨hb, hsend, sel, rfl⟩ := (hostTransaction_pstate hx).resolve_left hne
    exact .inl ⟨hb, hsend, sel, rfl⟩
  · obtain ⟨hp, hsend⟩ := (State.sequencerStep_pstate _).resolve_left hne
    exact .inr (.inr (.inr (.inr (.inr (.inl ⟨hp, hsend, .inr rfl⟩)))))
  · exact absurd rfl hne
  · exact absurd rfl hne
  · exact .inr (.inl ⟨hp, rfl, count, rfl⟩)
  · exact .inr (.inr (.inl ⟨hp, rfl, rfl⟩))
  · have hbound := h.attempt_lt (.inr hp)
    have hcount := toNat_attempt_succ hbound
    obtain ⟨hattempt, hway⟩ := State.gate_pstate { (State.writeBytes { s with inputs := rest } .rxbuf 0 bytes) with
      rxcnt := BitVec.ofNat 9 bytes.length, attempt := s.attempt + 1, xreq := .none }
    refine .inr (.inr (.inr (.inl ⟨hp, hx, ?_, bytes, rfl⟩)))
    rw [hattempt]
    rcases hway with hc | ⟨hr, ha⟩ | ⟨he, ha⟩
    · exact .inl hc
    · exact .inr (.inl ⟨hr, ha⟩)
    · exact .inr (.inr ⟨he, by dsimp only at ha ⊢; omega⟩)
  · exact .inr (.inr (.inr (.inr (.inl ⟨hp, hx, rfl, rfl⟩))))
  · exact .inr (.inr (.inr (.inr (.inr (.inr ⟨rfl, rfl⟩)))))

end Machine
end Sys2Proof
end

section
/-! Whole reads (44_poll_fsm.md R127): one cycle, the cycles whose responses lack the marker, and the three ways a read
ends. -/

namespace Sys2Proof
namespace Machine

/-! ### What is sent and held -/

/-- The response received last comes first, then what was held before it (R120). -/
theorem heldByte_append (responses : List (List Byte)) (r : List Byte) (i : Nat) :
    heldByte (responses ++ [r]) i = r.getD i (heldByte responses i) := by
  rw [heldByte, List.foldl_append]
  rfl

theorem getD_ne {r : List Byte} {i : Nat} {v d : Byte} (hr : r[i]? ≠ some v) (hd : d ≠ v) : r.getD i d ≠ v := by
  rw [List.getD_eq_getElem?_getD]
  cases hi : r[i]? with
  | none => exact hd
  | some w => exact fun h => hr (hi.trans (congrArg some h))

/-- Responses without the marker leave none in the cleared `RXBUF` (R111, R113). -/
theorem heldByte_one_ne {responses : List (List Byte)} (h : ∀ r ∈ responses, r[1]? ≠ some 0x22#8) :
    heldByte responses 1 ≠ 0x22 := by
  induction responses using List.reverseRecOn with
  | nil => decide
  | append_singleton responses r ih =>
    rw [heldByte_append]
    exact getD_ne (h r (by simp)) (ih fun x hx => h x (by simp [hx]))

theorem cyclesInputs_append (settle count : Nat) (responses : List (List Byte)) (r : List Byte) (rest : List Input) :
    cyclesInputs settle count (responses ++ [r]) ++ rest =
      cyclesInputs settle count responses ++ (cycleInputs settle count r ++ rest) := by
  simp [cyclesInputs]

/-! ### One cycle: R116 to R122 -/

/-- Two runs, one after the other. -/
theorem core_run_add {m n : Nat} {s t : State} (h : Sys2Proof.core.run m s = .next t) :
    Sys2Proof.core.run (m + n) s = Sys2Proof.core.run n t :=
  run_add_of_next Sys2Proof.core m n h

/-- The machine at the end of the settle wait, with `Receive` posted (R118, R119). -/
def State.awaiting (s : State) (rest : List Input) : State :=
  { s with
    inputs := rest, pstate := .awaitingResponse, xreq := .rx, timer := 0, outputs := .receive 280 :: s.outputs }

/-- From `Sending` to the posted `Receive` (R116 to R119). -/
theorem run_to_receive {s : State} {count : Nat} {rest : List Input} (hb : s.busy = true) (hp : s.pstate = .sending)
    (hx : s.xreq = .tx)
    (hin : s.inputs = .transmitOk count :: (List.replicate s.settle.toNat .tick ++ .sequencer :: rest)) :
    Sys2Proof.core.run (s.settle.toNat + 2) s = .next (s.awaiting rest) := by
  have hwait := run_settle_wait hp hx hin
  obtain ⟨-, hpost⟩ := settledSequencerPostsReceive
    { s with inputs := .sequencer :: rest, xreq := .none, timer := 0, pstate := .awaitingResponse } hb rfl rfl rfl
  rw [show s.settle.toNat + 2 = (1 + s.settle.toNat) + 1 by omega]
  exact (core_run_add hwait).trans (core_run_succ 0 (hpost rest rfl))

theorem State.gate_inputs (s : State) : (s.gate false).inputs = s.inputs := by
  obtain ⟨u, hu, hgate⟩ := s.gate_cases
  have hkept : u.inputs = s.inputs := by rcases hu with rfl | rfl <;> simp [State.strictCheck]
  rcases hgate with h | ⟨-, h⟩ | ⟨-, h⟩ <;> rw [h] <;> exact hkept

/-- A whole cycle ends with the gate and one more turn of the sequencer (R120, R122). -/
theorem run_cycle {s g t : State} {count : Nat} {r : List Byte} {rest : List Input} (hb : s.busy = true)
    (hp : s.pstate = .sending) (hx : s.xreq = .tx) (hlen : r.length ≤ 280)
    (hin : s.inputs = cycleInputs s.settle.toNat count r ++ rest)
    (hg : ((s.awaiting (.sequencer :: rest)).received r).gate false = g)
    (ht : State.sequencerStep { g with inputs := rest } = t) :
    Sys2Proof.core.run (s.settle.toNat + 4) s = .next t := by
  have hreceive : Sys2Proof.core.run (s.settle.toNat + 2) s = .next (s.awaiting (.receiveOk r :: .sequencer :: rest)) :=
    run_to_receive (count := count) hb hp hx (by rw [hin]; simp [cycleInputs])
  have hgate : step (s.awaiting (.receiveOk r :: .sequencer :: rest)) = .next g :=
    hg ▸ step_receiveOk rfl rfl hlen rfl
  have hturn : step g = .next t :=
    ht ▸ step_cons (hg ▸ State.gate_inputs ((s.awaiting (.sequencer :: rest)).received r))
  exact (core_run_add (n := 2) hreceive).trans ((core_run_succ 1 hgate).trans (core_run_succ 0 hturn))

/-! ### The cycles of a read: R127 -/

/-- The read started in `s₀` has received `responses`, none of which ended it, and transmits once more: what its next
cycle finds in `s`, with `rest` still to come. -/
structure State.SendsAfter (s₀ : State) (responses : List (List Byte)) (rest : List Input) (s : State) : Prop where
  pstate : s.pstate = .sending
  request : s.xreq = .tx
  busy : s.busy = true
  code : s.errCode = .none
  cause : s.errCause = .none
  attempt : s.attempt.toNat = responses.length
  flen : s.flen = 7
  frame : s.readBytes .txbuf 0 7 = readFrame
  settle : s.settle = s₀.settle
  cfg : s.cfg = s₀.cfg
  reading : s.reading = s₀.reading
  valid : s.valid = s₀.valid
  held : ∀ i, i < 280 → s.readByte .rxbuf i = heldByte responses i
  inputs : s.inputs = rest
  outputs : s.outputs = .transmit readFrame :: (cyclesOutputs responses.length ++ s₀.outputs)

/-- The start of a read transmits, with nothing received (R111). -/
theorem run_start {s : State} {sel : BufSel} {rest : List Input} (hb : s.busy = false)
    (hin : s.inputs = .host (.wreg .cmd (encode (.rdt sel))) :: rest) :
    ∃ t, Sys2Proof.core.run 1 s = .next t ∧ s.SendsAfter [] rest t := by
  let u := State.accept { s with inputs := rest } (encode (.rdt sel))
  have hframe := u.readBytes_txbuf_rdtStart
  have hheld (i : Nat) (hi : i < 280) : u.rdtStart.readByte .rxbuf i = 0 := u.readByte_rxbuf_rdtStart hi
  refine ⟨u.rdtStart.enterSending, core_run_succ 0 (step_rdt hb hin), ?_⟩
  rw [← State.readBytes_enterSending] at hframe
  rw [← State.readByte_enterSending] at hheld
  rw [State.enterSending_rdtStart] at hframe hheld ⊢
  exact ⟨rfl, rfl, rfl, rfl, rfl, rfl, rfl, hframe, rfl, rfl, rfl, rfl, hheld, rfl, rfl⟩

section
variable {s₀ s : State} {responses : List (List Byte)} {count : Nat} {r : List Byte} {rest : List Input}

/-- In the next cycle `RXBUF` holds the newest response over the earlier ones (R120). -/
theorem State.SendsAfter.readByte_received (h : s₀.SendsAfter responses (cycleInputs s₀.settle.toNat count r ++ rest) s)
    (rest' : List Input) {i : Nat} (hi : i < 280) :
    ((s.awaiting rest').received r).readByte .rxbuf i = heldByte (responses ++ [r]) i := by
  rw [State.readByte_received, heldByte_append, ← h.held i hi]
  rfl

/-- The next cycle of the read (R116 to R122). -/
theorem State.SendsAfter.run_cycle (h : s₀.SendsAfter responses (cycleInputs s₀.settle.toNat count r ++ rest) s)
    (hlen : r.length ≤ 280) {g t : State} (hg : ((s.awaiting (.sequencer :: rest)).received r).gate false = g)
    (ht : State.sequencerStep { g with inputs := rest } = t) :
    Sys2Proof.core.run (s₀.settle.toNat + 4) s = .next t := by
  have hin := h.inputs
  rw [← h.settle] at hin ⊢
  exact Machine.run_cycle h.busy h.pstate h.request hlen hin hg ht

/-- A response without the marker, cycles left: the read transmits again (R120, R122). -/
theorem State.SendsAfter.run_retried (h : s₀.SendsAfter responses (cycleInputs s₀.settle.toNat count r ++ rest) s)
    (hlen : r.length ≤ 280) (hm : heldByte (responses ++ [r]) 1 ≠ 0x22) (hleft : responses.length < 3) :
    ∃ t, Sys2Proof.core.run (s₀.settle.toNat + 4) s = .next t ∧ s₀.SendsAfter (responses ++ [r]) rest t := by
  have hattempt := h.attempt
  have hheld (i : Nat) (hi : i < 280) := h.readByte_received (.sequencer :: rest) hi
  rw [← hheld 1 (by decide), State.readByte_received] at hm
  have hgate := State.gate_received_retry (s := s.awaiting (.sequencer :: rest)) hm
    (show s.attempt.toNat < 3 by omega)
  let g : State := { (s.awaiting rest).received r with pstate := .retrying }
  have hturn := (State.sequencerStep_of_retrying (s := g) h.busy rfl).trans
    (State.enterSending_of_frame (s := g) h.flen h.frame)
  refine ⟨_, h.run_cycle hlen hgate hturn, { h with
    pstate := rfl, request := rfl, attempt := ?_, held := hheld, inputs := rfl, outputs := ?_ }⟩
  · exact (toNat_attempt_succ (show s.attempt.toNat < 4 by omega)).trans (by simp [hattempt])
  · rw [List.length_append]
    exact congrArg (fun o => Output.transmit readFrame :: Output.receive 280 :: o) h.outputs

end

/-- Cycles whose responses lack the marker, fewer than four, lead back to a transmission (R127). -/
theorem run_retried_cycles {s₀ : State} {sel : BufSel} {count : Nat} {responses : List (List Byte)} {rest : List Input}
    (hb : s₀.busy = false) (hresp : ∀ r ∈ responses, r.length ≤ 280 ∧ r[1]? ≠ some 0x22#8)
    (hleft : responses.length < 4)
    (hin : s₀.inputs = .host (.wreg .cmd (encode (.rdt sel))) ::
      (cyclesInputs s₀.settle.toNat count responses ++ rest)) :
    ∃ t, Sys2Proof.core.run (1 + responses.length * (s₀.settle.toNat + 4)) s₀ = .next t ∧
      s₀.SendsAfter responses rest t := by
  induction responses using List.reverseRecOn generalizing rest with
  | nil => rw [List.length_nil, Nat.zero_mul]; exact run_start hb hin
  | append_singleton responses r ih =>
    rw [cyclesInputs_append] at hin
    rw [List.length_append, List.length_singleton] at hleft ⊢
    obtain ⟨u, hbefore, hu⟩ := ih (fun x hx => hresp x (by simp [hx])) (by omega) hin
    obtain ⟨t, hcycle, ht⟩ := hu.run_retried (hresp r (by simp)).1 (heldByte_one_ne fun x hx => (hresp x hx).2)
      (by omega)
    refine ⟨t, ?_, ht⟩
    rw [Nat.succ_mul, ← Nat.add_assoc]
    exact (core_run_add hbefore).trans hcycle

/-! ### The ends of a read: R117, R123, R124 -/

/-- Settles O50: the start transmits, and the `Err` answer ends the read. -/
theorem transmitFailureEndsReadWithoutReceive : Obligations.TransmitFailureEndsReadWithoutReceive := by
  intro s sel rest hb hin
  obtain ⟨u, hrun, hu⟩ := run_start hb hin
  have hend := transportErrorEndsRead.1 u rest hu.pstate hu.request hu.inputs
  refine ⟨_, (core_run_add (n := 1) hrun).trans (core_run_succ 0 hend), rfl, rfl, rfl, ?_, rfl, rfl, hu.reading, rfl,
    hu.outputs⟩
  exact BitVec.eq_of_toNat_eq hu.attempt

/-- Settles O51: three cycles lead to the last transmission, and the gate gives up on the fourth response. -/
theorem readExhaustsAfterFourCycles : Obligations.ReadExhaustsAfterFourCycles := by
  intro s sel count responses rest hb hfour hresp hin
  obtain ⟨before, last, rfl⟩ : ∃ before last, responses = before ++ [last] :=
    (List.eq_nil_or_concat' responses).resolve_left fun h => by rw [h] at hfour; cases hfour
  have hthree : before.length = 3 := by simpa using hfour
  rw [cyclesInputs_append] at hin
  obtain ⟨u, hbefore, hu⟩ := run_retried_cycles hb (fun r hr => hresp r (by simp [hr])) (by omega) hin
  have hheld (i : Nat) (hi : i < 280) := hu.readByte_received (.sequencer :: rest) hi
  have hm := heldByte_one_ne fun r hr => (hresp r hr).2
  rw [← hheld 1 (by decide), State.readByte_received] at hm
  have hattempt : u.attempt.toNat = 3 := hu.attempt.trans hthree
  have hrun := hu.run_cycle (hresp last (by simp)).1
    (State.gate_received_exhausted (s := u.awaiting (.sequencer :: rest)) hm hattempt) (State.sequencerStep_idle rfl)
  have hruns : 1 + 4 * (s.settle.toNat + 4) = 1 + before.length * (s.settle.toNat + 4) + (s.settle.toNat + 4) := by
    rw [hthree]; omega
  rw [hruns]
  refine ⟨_, (core_run_add hbefore).trans hrun, rfl, ?_, rfl, rfl, rfl, rfl, hu.reading, hu.valid, rfl, rfl, ?_, hheld⟩
  · exact BitVec.eq_of_toNat_eq ((toNat_attempt_succ (show u.attempt.toNat < 4 by omega)).trans (by rw [hattempt]; rfl))
  · have hout := hu.outputs
    rw [hthree] at hout
    exact congrArg (Output.receive 280 :: ·) hout

/-- Settles O52: the cycles before lead to the last transmission, and the gate confirms the marked response. -/
theorem readConfirmsAtFirstMarkedResponse : Obligations.ReadConfirmsAtFirstMarkedResponse := by
  intro s sel count before good rest hb hstrict hfour hresp hlen hmarked hin
  rw [cyclesInputs_append] at hin
  obtain ⟨u, hbefore, hu⟩ := run_retried_cycles hb hresp hfour hin
  have hheld (i : Nat) (hi : i < 280) := hu.readByte_received (.sequencer :: rest) hi
  have hm : good.getD 1 ((u.awaiting (.sequencer :: rest)).readByte .rxbuf 1) = 0x22 := by
    rw [List.getD_eq_getElem?_getD, hmarked]; rfl
  have hmode : u.cfg.getLsbD 0 = false := by rw [hu.cfg]; exact hstrict
  have hrun := hu.run_cycle hlen
    (State.gate_received_confirmed (s := u.awaiting (.sequencer :: rest)) hm hmode) (State.sequencerStep_idle rfl)
  have hattempt := hu.attempt
  rw [Nat.succ_mul, ← Nat.add_assoc]
  refine ⟨_, (core_run_add hbefore).trans hrun, rfl, ?_, hu.code, hu.cause, rfl, rfl, rfl,
    toNat_ofNat_nine (by omega), ?_, rfl, congrArg (Output.receive 280 :: ·) hu.outputs⟩
  · exact (toNat_attempt_succ (show u.attempt.toNat < 4 by omega)).trans (by rw [hattempt])
  · rw [← hheld 11 (by decide), ← hheld 12 (by decide), ← hheld 13 (by decide), ← hheld 14 (by decide), ← hu.cfg]
    rfl

end Machine
end Sys2Proof
end

section
/-! The host port (45_host_port.md R131 to R138): each transaction as `BUSY` permits it, and the start of an operation. -/

namespace Sys2Proof

/-- A table row's word is read by the decoder of the command byte. -/
theorem decode_of_decodeTableWord {nbits w : Nat} {i : Instr} (h : decodeTableWord nbits w = some i) :
    decode (BitVec.ofNat 8 (w % 2 ^ nbits)) = .ok i := by
  unfold decodeTableWord at h
  split at h
  · rename_i hdec; rw [hdec, Option.some.inj h]
  · cases h

namespace Machine

theorem step_host {s : State} {x : HostTxn} {rest : List Input} (hin : s.inputs = .host x :: rest) :
    step s = hostTransaction x { s with inputs := rest } := step_cons hin

/-! ### Starts and register writes: R132, R135 -/

/-- Settles O4: the step is the host's write of `CMD`, and `State.accept` is the prologue. -/
theorem stepRunsDecodedCommand : Obligations.StepRunsDecodedCommand :=
  fun _ _ _ _ hb hdec hin => step_wreg_cmd hb hdec hin

/-- Settles O5: the state `withFetchWord` makes has `BUSY` = 0 and the write of the word as its next transaction. -/
theorem fetchWordIsRunByNextStep : Obligations.FetchWordIsRunByNextStep := fun s nbits w _ hword =>
  step_wreg_cmd (s := s.withFetchWord nbits w) rfl (decode_of_decodeTableWord hword) rfl

/-- With `BUSY` = 0 the step that writes a register other than `CMD` is `State.writeRegister` (R132). -/
theorem step_wreg_idle {s : State} {r : HostReg} {v : BitVec r.width} {rest : List Input} (hb : s.busy = false)
    (hr : r ≠ .cmd) (hin : s.inputs = .host (.wreg r v) :: rest) :
    step s = .next (State.writeRegister { s with inputs := rest } r v) :=
  (step_host hin).trans (hostTransaction_wreg_idle (s := { s with inputs := rest }) v hb hr)

/-- Settles O10: a write of `CMD` is a start, and any other write is `State.writeRegister`. -/
theorem registerWrites : Obligations.RegisterWrites := by
  refine fun s rest hb => ⟨fun v => step_wreg_idle hb (by decide), fun v => step_wreg_idle hb (by decide),
    fun v => step_wreg_idle hb (by decide), fun v => step_wreg_idle hb (by decide), fun w hin => ?_,
    fun r v hr hin => ?_⟩
  · exact (step_host hin).trans (hostTransaction_wreg_cmd (s := { s with inputs := rest }) hb w)
  · have hcmd : r ≠ .cmd := fun h => hr (by rw [h]; decide)
    rw [step_wreg_idle hb hcmd hin, State.writeRegister_of_readOnly _ v hr]

/-! ### Register reads: R131 -/

theorem regNumber_regOfNumber : ∀ n : Fin 32, regNumber (regOfNumber n) = n.val := by decide

/-- The registers hold nothing of the events still to come. -/
theorem State.register_with_inputs (s : State) (es : List Input) (r : HostReg) :
    State.register { s with inputs := es } r = s.register r := rfl

/-- Settles O9: a permitted read only sends out the value, and each register's value is read off `State.register`. -/
theorem registerReadReturnsValue : Obligations.RegisterReadReturnsValue := by
  obtain ⟨hstatus, herr, -⟩ := statusAndErrorImages
  refine ⟨fun s r rest hb hin => ?_, fun s k => rfl, regNumber_regOfNumber, by decide, fun s => ?_,
    resetValues.1 .settle⟩
  · rw [step_host hin, hostTransaction_rreg_idle { s with inputs := rest } r hb, State.register_with_inputs]
    rfl
  · exact ⟨rfl, rfl, rfl, hstatus s, herr s, rfl, rfl, rfl, rfl, rfl, rfl, rfl, rfl, rfl, rfl, rfl⟩

/-! ### Buffer transactions: R133, R134 -/

theorem hostTransaction_rbuf_inside {s : State} {b : BufId} {i : Nat} (hb : s.busy = false) (hi : i < b.cap) :
    hostTransaction (.rbuf b i) s = .next (s.emit (.byte b i (s.readByte b i))) := by
  simp [hostTransaction, hb, hi]

theorem hostTransaction_wbuf_inside {s : State} {b : BufId} {i : Nat} (hb : s.busy = false) (hi : i < b.cap)
    (v : Byte) : hostTransaction (.wbuf b i v) s = .next (s.writeByte b i v) := by
  simp [hostTransaction, hb, hi]

/-- A write of a byte leaves everything but the three memories (R134). -/
theorem State.writeByte_frame (s : State) (b : BufId) (i : Nat) (v : Byte) :
    s.writeByte b i v = { s with
      pbuf := (s.writeByte b i v).pbuf, txbuf := (s.writeByte b i v).txbuf, rxbuf := (s.writeByte b i v).rxbuf } := by
  cases b <;> rfl

theorem State.readByte_with_inputs (s : State) (es : List Input) :
    State.readByte { s with inputs := es } = s.readByte := rfl

/-- Settles O12: inside the buffer `RBUF` is the output of the byte read, and `WBUF` the write of one byte. -/
theorem bufferTransactions : Obligations.BufferTransactions := by
  refine fun s b i rest hb hi => ⟨fun hin => ?_, fun v hin => ⟨State.writeByte { s with inputs := rest } b i v,
    ?_, fun c j => ?_, State.writeByte_frame _ b i v⟩⟩
  · rw [step_host hin, hostTransaction_rbuf_inside (s := { s with inputs := rest }) hb hi, State.readByte_with_inputs]
    rfl
  · exact (step_host hin).trans (hostTransaction_wbuf_inside (s := { s with inputs := rest }) hb hi v)
  · simp only [State.readByte_writeByte, State.readByte_with_inputs, eq_comm (a := i)]

/-! ### Transactions while `BUSY` = 1: R138 -/

theorem readableWhileBusy_iff (r : HostReg) : readableWhileBusy r = true ↔ regNumber r ∈ [3, 8, 9, 14] := by
  cases r with
  | reserved k =>
    have hk : 16 + k.val ∉ [3, 8, 9, 14] := by
      simp only [List.mem_cons, List.not_mem_nil, or_false]
      omega
    exact iff_of_false Bool.false_ne_true hk
  | _ => decide

/-- The four status registers are read whatever `BUSY` is. -/
theorem hostTransaction_rreg_readable (s : State) {r : HostReg} (hr : readableWhileBusy r = true) :
    hostTransaction (.rreg r) s = .next (s.emit (.register r (s.register r))) := by
  simp [hostTransaction, hr]

/-- While `BUSY` = 1 everything but a read of those four is refused. -/
theorem hostTransaction_busy {s : State} {x : HostTxn} (hb : s.busy = true)
    (hx : ∀ r, x = .rreg r → readableWhileBusy r = false) :
    hostTransaction x s = .refused .hostAccessWhileBusy := by
  cases x with
  | rreg r => exact if_pos ⟨hb, hx r rfl⟩
  | wreg r v => exact if_pos hb
  | rbuf b i => exact if_pos hb
  | wbuf b i v => exact if_pos hb

/-- Settles O14: `readableWhileBusy` holds of exactly the four register numbers. -/
theorem hostShutOutWhileBusy : Obligations.HostShutOutWhileBusy := by
  intro s rest hb
  have hrefused {x : HostTxn} (hx : ∀ r, x = .rreg r → readableWhileBusy r = false)
      (hin : s.inputs = .host x :: rest) : step s = .refused .hostAccessWhileBusy :=
    (step_host hin).trans (hostTransaction_busy (s := { s with inputs := rest }) hb hx)
  refine ⟨fun r hr hin => ?_, fun r hr => hrefused fun q hq => ?_, fun r v => hrefused nofun,
    fun b i => hrefused nofun, fun b i v => hrefused nofun⟩
  · rw [step_host hin, hostTransaction_rreg_readable _ ((readableWhileBusy_iff r).mpr hr), State.register_with_inputs]
    rfl
  · rw [← HostTxn.rreg.inj hq]
    exact Bool.eq_false_iff.mpr fun h => hr ((readableWhileBusy_iff r).mp h)

/-! ### The transport's contract: R137 -/

theorem receiveOk_overlong {s : State} {bytes : List Byte} (hp : s.pstate = .awaitingResponse) (hx : s.xreq = .rx)
    (hlen : 280 < bytes.length) : receiveOk bytes s = .refused .receiveTooLong :=
  (if_pos ⟨hp, hx⟩).trans (if_pos hlen)

/-- Settles O38: the answer is the one waited for, and its length decides. -/
theorem overlongReceiveIsRefused : Obligations.OverlongReceiveIsRefused := fun s _ rest hp hx hlen hin =>
  (step_cons hin).trans (receiveOk_overlong (s := { s with inputs := rest }) hp hx hlen)

end Machine
end Sys2Proof
end

section
/-! Errors (60_exceptions.md R140 to R151): how an operation ends with one, and what an idle machine keeps. -/

namespace Sys2Proof
namespace Machine

/-! ### A step that writes an error is a `raise`: R143, R149, R150 -/

/-- From `s` an operation ended in `t` by an error of R149 with `READING` kept (R150), and not by the error that no
execution raises (R143). -/
def State.EndsByError (s t : State) : Prop :=
  ∃ u e c, t = State.raise u e c ∧ e ≠ .messageGenerationFailed ∧ u.reading = s.reading

theorem State.EndsByError.code_ne {s t : State} (h : s.EndsByError t) : t.errCode ≠ .messageGenerationFailed := by
  obtain ⟨u, e, c, rfl, he, -⟩ := h
  exact he

theorem State.EndsByError.ended {s t : State} (h : s.EndsByError t) :
    t.busy = false ∧ t.done = true ∧ t.xreq = .none ∧ t.reading = s.reading := by
  obtain ⟨u, e, c, rfl, -, hread⟩ := h
  exact ⟨rfl, rfl, rfl, hread⟩

theorem State.enterSending_errCode (s : State) : s.enterSending.errCode = s.errCode := rfl

theorem State.rdtStart_errCode (s : State) : s.rdtStart.errCode = s.errCode := by rw [State.rdtStart_frame]

/-- The body of an operation leaves `ERR.CODE` as the prologue set it, or ends with an operand error. -/
theorem exec_errCode {i : Instr} {s t : State} (h : exec i s = .next t) :
    t.errCode = s.errCode ∨ s.EndsByError t := by
  rcases exec_cases h with ⟨v, n, e, -, he, rfl⟩ | ⟨-, b, first, last, -, -, -, rfl⟩ | ⟨-, n, -, -, rfl⟩ |
    ⟨-, b, ti, -, -, -, rfl⟩ | ⟨-, b, o, -, rfl⟩ | ⟨-, -, rfl⟩
  · have hcode : e ≠ .messageGenerationFailed := by rcases he with rfl | rfl | rfl <;> decide
    exact .inr ⟨_, e, .none, rfl, hcode, rfl⟩
  · exact .inl rfl
  · exact .inl (by rw [State.buildFrame_frame]; rfl)
  · exact .inl rfl
  · exact .inl rfl
  · exact .inl (by rw [State.enterSending_errCode, State.rdtStart_errCode])

/-- A start clears `ERR.CODE` (R135), and its own step may then end with an error. -/
theorem startOperation_errCode {w : Byte} {s t : State} (h : startOperation w s = .next t) :
    t.errCode = .none ∨ s.EndsByError t := by
  cases hdec : decode w with
  | ok i => rw [startOperation_ok hdec] at h; exact exec_errCode h
  | error r =>
    rw [startOperation_error hdec] at h
    cases h
    exact .inr ⟨s.accept w, .illegalOp, .none, rfl, by decide, rfl⟩

theorem State.writeRegister_errCode (s : State) (r : HostReg) (v : BitVec r.width) :
    (s.writeRegister r v).errCode = s.errCode := by cases r <;> rfl

/-- The host writes `ERR.CODE` only by a start. -/
theorem hostTransaction_errCode {x : HostTxn} {s t : State} (h : hostTransaction x s = .next t) :
    t.errCode = s.errCode ∨ t.errCode = .none ∨ s.EndsByError t := by
  rcases hostTransaction_cases h with ⟨o, rfl, -⟩ | ⟨b, i, v, -, -, -, rfl⟩ | ⟨r, v, -, -, rfl⟩ |
    ⟨w, i, -, -, hdec, hexec⟩ | ⟨w, -, -, rfl⟩
  · exact .inl rfl
  · exact .inl (State.writeByte_errCode s b i v)
  · exact .inl (s.writeRegister_errCode r v)
  · exact .inr (startOperation_errCode ((startOperation_ok hdec s).trans hexec))
  · exact .inr (.inr ⟨s.accept w, .illegalOp, .none, rfl, by decide, rfl⟩)

theorem State.sequencerStep_errCode (s : State) : s.sequencerStep.errCode = s.errCode := by
  rcases s.sequencerStep_cases with h | ⟨-, -, -, -, h⟩ | ⟨-, -, h⟩ <;> rw [h] <;> rfl

/-- The gate after a `Receive` writes `ERR.CODE` only where it gives up (R124). -/
theorem State.gate_errCode (s : State) : (s.gate false).errCode = s.errCode ∨ s.EndsByError (s.gate false) := by
  obtain ⟨u, hu, hgate⟩ := s.gate_cases
  have hkept : u.errCode = s.errCode ∧ u.reading = s.reading := by rcases hu with rfl | rfl <;> exact ⟨rfl, rfl⟩
  rcases hgate with h | ⟨-, h⟩ | ⟨-, h⟩ <;> rw [h]
  · exact .inl hkept.1
  · exact .inl hkept.1
  · exact .inr ⟨_, .badResponse, _, rfl, by decide, hkept.2⟩

/-- Every event leaves `ERR.CODE`, clears it, or ends an operation with an error. -/
theorem event_errCode {e : Input} {s t : State} (h : event e s = .next t) :
    t.errCode = s.errCode ∨ t.errCode = .none ∨ s.EndsByError t := by
  rcases event_cases h with ⟨x, -, hx⟩ | ⟨-, rfl⟩ | rfl | ⟨-, -, -, -, rfl⟩ | ⟨-, -, -, -, rfl⟩ | ⟨-, -, -, rfl⟩ |
    ⟨bytes, -, -, -, -, rfl⟩ | ⟨-, -, -, rfl⟩ | ⟨-, rfl⟩
  · exact hostTransaction_errCode hx
  · exact .inl s.sequencerStep_errCode
  · exact .inl rfl
  · exact .inl rfl
  · exact .inl rfl
  · exact .inr (.inr ⟨_, .badResponse, .txFail, rfl, by decide, rfl⟩)
  · exact (State.gate_errCode _).imp_right .inr
  · exact .inr (.inr ⟨_, .badResponse, .rxFail, rfl, by decide, rfl⟩)
  · exact .inr (.inl rfl)

theorem step_errCode {s t : State} (h : step s = .next t) :
    t.errCode = s.errCode ∨ t.errCode = .none ∨ s.EndsByError t := by
  rcases step_cases h with ⟨-, rfl⟩ | ⟨e, rest, -, hevent⟩
  · exact .inl s.sequencerStep_errCode
  · exact (event_errCode hevent :)

/-- Settles O46: a step that neither leaves nor clears `ERR.CODE` raises another error. -/
theorem messageGenerationFailedNeverRaised : Obligations.MessageGenerationFailedNeverRaised := by
  intro s t hstep hcode
  rcases step_errCode hstep with hsame | hnone | herr
  · exact hsame.symm.trans hcode
  · exact nomatch hnone.symm.trans hcode
  · exact absurd hcode herr.code_ne

/-- A step that runs an operation and leaves an error has raised it: a running operation has none before (R17), and a
start clears it (R135). -/
theorem State.Inv.endsByError {s t : State} (h : s.Inv) (hstep : step s = .next t) (hcode : t.errCode ≠ .none)
    (hrun : s.busy = true ∨ ∃ w, s.inputs.head? = some (.host (.wreg .cmd w))) : s.EndsByError t := by
  cases hb : s.busy with
  | true =>
    obtain ⟨-, -, -, ⟨hclear, -⟩, -⟩ := h
    rcases step_errCode hstep with hsame | hnone | herr
    · exact absurd (hsame.trans (hclear hb)) hcode
    · exact absurd hnone hcode
    · exact herr
  | false =>
    obtain ⟨w, hw⟩ := hrun.resolve_left (by simp [hb])
    obtain ⟨rest, hin⟩ := List.head?_eq_some_iff.mp hw
    have hstart : step s = startOperation w { s with inputs := rest } :=
      (step_host hin).trans (hostTransaction_wreg_cmd (s := { s with inputs := rest }) hb w)
    exact (startOperation_errCode (hstart.symm.trans hstep)).resolve_left hcode

/-- Settles O47: `raise` by its definition, and the steps that leave an error by their being a `raise`; the cause goes
with the code by the invariant. -/
theorem raiseEndsOperationWithError : Obligations.RaiseEndsOperationWithError := by
  refine ⟨fun s cause => rfl, fun s code cause hne => by rw [State.raise, if_neg hne], fun s t h hstep hcode hrun => ?_⟩
  obtain ⟨hb, hdone, hx, hread⟩ := (h.endsByError hstep hcode hrun).ended
  obtain ⟨-, -, -, ⟨-, hcause, -⟩, -⟩ := everyStepKeepsInvariant s t h hstep
  exact ⟨hb, hdone, hx, hcause, hread⟩

/-! ### Results stay: R151, R168 -/

/-- `ERR`, the flags and the results of the operations (R151, R168). -/
def State.results (s : State) :
    (ErrCode × ErrCause × Bool × Bool × Bool) × (Engine × BitVec 9 × BitVec 32 × PState × BitVec 3) ×
      (BitVec 16 × BitVec 16 × BitVec 9 × BitVec 16) :=
  ((s.errCode, s.errCause, s.busy, s.done, s.valid), (s.eng, s.flen, s.reading, s.pstate, s.attempt),
    (s.diagCalc, s.diagRecv, s.rxcnt, s.timer))

theorem State.writeRegister_results (s : State) (r : HostReg) (v : BitVec r.width) :
    (s.writeRegister r v).results = s.results := by cases r <;> rfl

theorem State.writeByte_results (s : State) (b : BufId) (i : Nat) (v : Byte) :
    (s.writeByte b i v).results = s.results := by rw [State.writeByte_frame]; rfl

/-- The host writes results only by a start. -/
theorem hostTransaction_results {x : HostTxn} {s t : State} (h : hostTransaction x s = .next t)
    (hx : ∀ w, x ≠ .wreg .cmd w) : t.results = s.results := by
  rcases hostTransaction_cases h with ⟨o, rfl, -⟩ | ⟨b, i, v, -, -, -, rfl⟩ | ⟨r, v, -, -, rfl⟩ |
    ⟨w, -, -, hcmd, -⟩ | ⟨w, -, hcmd, -⟩
  · rfl
  · exact s.writeByte_results b i v
  · exact s.writeRegister_results r v
  · exact absurd hcmd (hx w)
  · exact absurd hcmd (hx w)

/-- An idle machine of the invariant keeps its results through every step but a start and reset. -/
theorem State.Inv.results_of_idle {s t : State} (h : s.Inv) (hb : s.busy = false) (hstep : step s = .next t)
    (hcmd : ∀ w, s.inputs.head? ≠ some (.host (.wreg .cmd w))) (hreset : s.inputs.head? ≠ some .reset) :
    t.results = s.results := by
  rcases step_cases hstep with ⟨-, rfl⟩ | ⟨e, rest, hin, hevent⟩
  · rw [State.sequencerStep_idle hb]
  rw [hin, List.head?_cons] at hreset
  by_cases hhost : ∃ x, e = .host x
  · obtain ⟨x, rfl⟩ := hhost
    refine (hostTransaction_results hevent fun w hw => hcmd w ?_).trans rfl
    rw [hin, List.head?_cons, hw]
  · have hignored := idleMachineIgnoresEverythingButHost s e rest h hb hin (fun x hx => hhost ⟨x, hx⟩)
      fun he => hreset (congrArg some he)
    cases hignored.symm.trans hstep
    rfl

/-- Settles O48: the registers named are the components of `State.results`. -/
theorem resultsStayUntilNextStart : Obligations.ResultsStayUntilNextStart := by
  intro s t h hb hstep hcmd hreset
  have hkept := h.results_of_idle hb hstep hcmd hreset
  simpa only [State.results, Prod.mk.injEq, and_assoc] using hkept

end Machine
end Sys2Proof
end

section
/-! The reset input, and answers of the transport that come when none is waited for (70_reset_and_hazards.md R160 to
R162, 60_exceptions.md R147). -/

namespace Sys2Proof
namespace Machine

/-- The reset input takes the machine to `State.resetEvent` from every state, a busy one included (R160). -/
theorem step_reset {s : State} {rest : List Input} (hin : s.inputs = .reset :: rest) :
    step s = .next (State.resetEvent { s with inputs := rest }) := step_cons hin

/-- Settles O7: the step is the reset event, and that event takes from `s` only the epoch, which it advances, and the
lists of events and outputs. -/
theorem resetInputResetsEverything : Obligations.ResetInputResetsEverything := by
  intro s rest hin
  rw [step_reset hin, State.resetEvent]

/-- Settles O53: the event is taken from the list, and each answer is dropped because its own request is not
outstanding. -/
theorem unaskedAnswersChangeNothing : Obligations.UnaskedAnswersChangeNothing := by
  intro s rest
  refine ⟨fun htx => ⟨fun count hin => ?_, fun hin => ?_⟩, fun hrx => ⟨fun bytes hin => ?_, fun hin => ?_⟩⟩ <;>
    rw [step_cons hin]
  · exact congrArg _ (State.transmitOk_unasked (s := { s with inputs := rest }) htx count)
  · exact congrArg _ (State.transmitErr_unasked (s := { s with inputs := rest }) htx)
  · exact receiveOk_unasked (s := { s with inputs := rest }) hrx bytes
  · exact congrArg _ (State.receiveErr_unasked (s := { s with inputs := rest }) hrx)

end Machine
end Sys2Proof
end
